-- ==== Sys2Proof/Word.lean ====
section
/-! DEFINITION. The machine's unsigned word types (00_scope.md R8, R16): all arithmetic on them is modulo two to the width. -/

namespace Sys2Proof

/-- A byte, 8 bits (00_scope.md R8). -/
abbrev Byte := BitVec 8

/-- The spec's u16. -/
abbrev Half := BitVec 16

/-- The spec's u32. -/
abbrev Word := BitVec 32

/-- The spec's u64. -/
abbrev DWord := BitVec 64

end Sys2Proof
end

