-- ==== Sys2Proof/Syntax.lean ====
section
/-! DEFINITION. The operations of the block, one constructor for each row of the opcode map (30_encoding.md R104). -/

namespace Sys2Proof

/-- The operand forms of a command word (30_encoding.md R101). -/
inductive Form where
  /-- A and B must be 0. -/
  | none
  /-- A and B[11:8] must be 0; B[7:0] is an immediate byte. -/
  | imm8
  /-- A is a byte offset into FB, B a length in bytes. -/
  | range
  /-- A is a byte offset into FB, B must be 0. -/
  | off
deriving DecidableEq, Repr

/-- The operations (30_encoding.md R104). `off` and `len` are byte counts, which the block adds exactly
(20_memory.md R70; 46_control_and_context.md R265), so they are numbers; `imm` is a byte. -/
inductive Instr where
  | nop
  | srst
  | crc16Init
  | crc16Updb (imm : Byte)
  | crc16Updr (off len : Nat)
  | crc16Put (off : Nat)
  | sum8Init
  | sum8Updb (imm : Byte)
  | sum8Updr (off len : Nat)
  | sum8Put (off : Nat)
  | shaInit
  | shaUpdb (imm : Byte)
  | shaUpdr (off len : Nat)
  | shaUpdk1
  | shaUpdk2
  | shaUpddg
  | shaFin
  | kdfRun
  | kdfLatch
  | rc4Ksa
  | rc4Xorr (off len : Nat)
  | rc4Gen
  | frmValidate
  | frmDecode
  | frmRx
  | frmEncode
deriving DecidableEq, Repr

end Sys2Proof
end

