-- ==== Sys2Proof/Decode.lean ====
section
/-! DEFINITION. The command word (30_encoding.md part B): decoding, which is total on 32-bit words and rejects by name, the
encoder, the opcode map as rows, the assembler syntax and the pseudo-operations. -/

namespace Sys2Proof

/-- Why a word is illegal; either way the block's outcome is F_OPCODE (30_encoding.md R102, R105). -/
inductive DecodeError where
  /-- OP is not in the opcode map (30_encoding.md R105). -/
  | unassignedOpcode (op : Byte)
  /-- A field that the opcode's form says must be 0 is not (30_encoding.md R102). -/
  | operandNotZero (op : Byte)
deriving DecidableEq, Repr

/-- OP, bits 31:24 (30_encoding.md R100). -/
def opField (w : Word) : Byte := w.extractLsb' 24 8

/-- A, bits 23:12 (30_encoding.md R100). -/
def aField (w : Word) : BitVec 12 := w.extractLsb' 12 12

/-- B, bits 11:0 (30_encoding.md R100). -/
def bField (w : Word) : BitVec 12 := w.extractLsb' 0 12

/-- The word with the three fields given (30_encoding.md R100). -/
def commandWord (op : Byte) (a b : BitVec 12) : Word := op ++ a ++ b

/-- Form none: A and B must be 0 (30_encoding.md R101). -/
def decodeNone (w : Word) (i : Instr) : Except DecodeError Instr :=
  if aField w = 0 ∧ bField w = 0 then .ok i else .error (.operandNotZero (opField w))

/-- Form imm8: A and B[11:8] must be 0 and B[7:0] is the byte (30_encoding.md R101). -/
def decodeImm8 (w : Word) (mk : Byte → Instr) : Except DecodeError Instr :=
  if aField w = 0 ∧ (bField w).extractLsb' 8 4 = 0 then .ok (mk ((bField w).extractLsb' 0 8))
  else .error (.operandNotZero (opField w))

/-- Form range: A is the offset and B the length, any values (30_encoding.md R101). -/
def decodeRange (w : Word) (mk : Nat → Nat → Instr) : Except DecodeError Instr :=
  .ok (mk (aField w).toNat (bField w).toNat)

/-- Form off: A is the offset and B must be 0 (30_encoding.md R101). -/
def decodeOff (w : Word) (mk : Nat → Instr) : Except DecodeError Instr :=
  if bField w = 0 then .ok (mk (aField w).toNat) else .error (.operandNotZero (opField w))

/-- The decoder: OP first, then the must-be-zero fields of that opcode's form (30_encoding.md R103, R104). -/
def decode (w : Word) : Except DecodeError Instr :=
  match opField w with
  | 0x00#8 => decodeNone w .nop
  | 0x01#8 => decodeNone w .srst
  | 0x10#8 => decodeNone w .crc16Init
  | 0x11#8 => decodeImm8 w .crc16Updb
  | 0x12#8 => decodeRange w .crc16Updr
  | 0x13#8 => decodeOff w .crc16Put
  | 0x20#8 => decodeNone w .sum8Init
  | 0x21#8 => decodeImm8 w .sum8Updb
  | 0x22#8 => decodeRange w .sum8Updr
  | 0x23#8 => decodeOff w .sum8Put
  | 0x30#8 => decodeNone w .shaInit
  | 0x31#8 => decodeImm8 w .shaUpdb
  | 0x32#8 => decodeRange w .shaUpdr
  | 0x33#8 => decodeNone w .shaUpdk1
  | 0x34#8 => decodeNone w .shaUpdk2
  | 0x35#8 => decodeNone w .shaUpddg
  | 0x36#8 => decodeNone w .shaFin
  | 0x38#8 => decodeNone w .kdfRun
  | 0x39#8 => decodeNone w .kdfLatch
  | 0x40#8 => decodeNone w .rc4Ksa
  | 0x41#8 => decodeRange w .rc4Xorr
  | 0x42#8 => decodeNone w .rc4Gen
  | 0x50#8 => decodeNone w .frmValidate
  | 0x51#8 => decodeNone w .frmDecode
  | 0x52#8 => decodeNone w .frmRx
  | 0x53#8 => decodeNone w .frmEncode
  | op => .error (.unassignedOpcode op)

/-- A row of the opcode map (30_encoding.md R104). -/
structure OpRow where
  op : Byte
  mnemonic : String
  form : Form
deriving DecidableEq, Repr

/-- The row of each operation (30_encoding.md R104). -/
def Instr.row : Instr → OpRow
  | .nop => ⟨0x00, "NOP", .none⟩
  | .srst => ⟨0x01, "SRST", .none⟩
  | .crc16Init => ⟨0x10, "CRC16.INIT", .none⟩
  | .crc16Updb _ => ⟨0x11, "CRC16.UPDB", .imm8⟩
  | .crc16Updr _ _ => ⟨0x12, "CRC16.UPDR", .range⟩
  | .crc16Put _ => ⟨0x13, "CRC16.PUT", .off⟩
  | .sum8Init => ⟨0x20, "SUM8.INIT", .none⟩
  | .sum8Updb _ => ⟨0x21, "SUM8.UPDB", .imm8⟩
  | .sum8Updr _ _ => ⟨0x22, "SUM8.UPDR", .range⟩
  | .sum8Put _ => ⟨0x23, "SUM8.PUT", .off⟩
  | .shaInit => ⟨0x30, "SHA.INIT", .none⟩
  | .shaUpdb _ => ⟨0x31, "SHA.UPDB", .imm8⟩
  | .shaUpdr _ _ => ⟨0x32, "SHA.UPDR", .range⟩
  | .shaUpdk1 => ⟨0x33, "SHA.UPDK1", .none⟩
  | .shaUpdk2 => ⟨0x34, "SHA.UPDK2", .none⟩
  | .shaUpddg => ⟨0x35, "SHA.UPDDG", .none⟩
  | .shaFin => ⟨0x36, "SHA.FIN", .none⟩
  | .kdfRun => ⟨0x38, "KDF.RUN", .none⟩
  | .kdfLatch => ⟨0x39, "KDF.LATCH", .none⟩
  | .rc4Ksa => ⟨0x40, "RC4.KSA", .none⟩
  | .rc4Xorr _ _ => ⟨0x41, "RC4.XORR", .range⟩
  | .rc4Gen => ⟨0x42, "RC4.GEN", .none⟩
  | .frmValidate => ⟨0x50, "FRM.VALIDATE", .none⟩
  | .frmDecode => ⟨0x51, "FRM.DECODE", .none⟩
  | .frmRx => ⟨0x52, "FRM.RX", .none⟩
  | .frmEncode => ⟨0x53, "FRM.ENCODE", .none⟩

/-- The opcode map in the order of 30_encoding.md R104, one operation of each row (operands 0). -/
def opcodeMap : List OpRow :=
  [.nop, .srst, .crc16Init, .crc16Updb 0, .crc16Updr 0 0, .crc16Put 0, .sum8Init, .sum8Updb 0, .sum8Updr 0 0, .sum8Put 0,
   .shaInit, .shaUpdb 0, .shaUpdr 0 0, .shaUpdk1, .shaUpdk2, .shaUpddg, .shaFin, .kdfRun, .kdfLatch, .rc4Ksa,
   .rc4Xorr 0 0, .rc4Gen, .frmValidate, .frmDecode, .frmRx, .frmEncode].map Instr.row

/-- The mask of a form: the bits that a word of that form must have at fixed values (30_encoding.md R104). -/
def Form.mask : Form → Word
  | .none => 0xFFFFFFFF
  | .imm8 => 0xFFFFFF00
  | .range => 0xFF000000
  | .off => 0xFF000FFF

/-- The word carries this row's operation: `OP << 24` under the form's mask (30_encoding.md R104). -/
abbrev OpRow.matches (r : OpRow) (w : Word) : Prop := w &&& r.form.mask = commandWord r.op 0 0

/-- Field A of the operation's word (30_encoding.md R101). -/
def Instr.fieldA : Instr → BitVec 12
  | .crc16Updr off _ => BitVec.ofNat 12 off
  | .sum8Updr off _ => BitVec.ofNat 12 off
  | .shaUpdr off _ => BitVec.ofNat 12 off
  | .rc4Xorr off _ => BitVec.ofNat 12 off
  | .crc16Put off => BitVec.ofNat 12 off
  | .sum8Put off => BitVec.ofNat 12 off
  | .nop => 0
  | .srst => 0
  | .crc16Init => 0
  | .crc16Updb _ => 0
  | .sum8Init => 0
  | .sum8Updb _ => 0
  | .shaInit => 0
  | .shaUpdb _ => 0
  | .shaUpdk1 => 0
  | .shaUpdk2 => 0
  | .shaUpddg => 0
  | .shaFin => 0
  | .kdfRun => 0
  | .kdfLatch => 0
  | .rc4Ksa => 0
  | .rc4Gen => 0
  | .frmValidate => 0
  | .frmDecode => 0
  | .frmRx => 0
  | .frmEncode => 0

/-- Field B of the operation's word (30_encoding.md R101). -/
def Instr.fieldB : Instr → BitVec 12
  | .crc16Updb imm => imm.setWidth 12
  | .sum8Updb imm => imm.setWidth 12
  | .shaUpdb imm => imm.setWidth 12
  | .crc16Updr _ len => BitVec.ofNat 12 len
  | .sum8Updr _ len => BitVec.ofNat 12 len
  | .shaUpdr _ len => BitVec.ofNat 12 len
  | .rc4Xorr _ len => BitVec.ofNat 12 len
  | .crc16Put _ => 0
  | .sum8Put _ => 0
  | .nop => 0
  | .srst => 0
  | .crc16Init => 0
  | .sum8Init => 0
  | .shaInit => 0
  | .shaUpdk1 => 0
  | .shaUpdk2 => 0
  | .shaUpddg => 0
  | .shaFin => 0
  | .kdfRun => 0
  | .kdfLatch => 0
  | .rc4Ksa => 0
  | .rc4Gen => 0
  | .frmValidate => 0
  | .frmDecode => 0
  | .frmRx => 0
  | .frmEncode => 0

/-- The command word of a well-formed operation (30_encoding.md R100, R101, R104). -/
def encode (i : Instr) : Word := commandWord i.row.op i.fieldA i.fieldB

/-- The instruction the decoder reads from the table's bits `w`: the whole 32-bit command word, every bit at or above
`nbits` being 0. A command word is a number written to a register and has no byte order (20_memory.md R68). -/
def decodeTableWord (nbits w : Nat) : Option Instr :=
  match decode (BitVec.ofNat 32 (w % 2 ^ nbits)) with
  | .ok i => some i
  | .error _ => none

/-- The operands as the assembler writes them, in decimal (30_encoding.md R106). -/
def Instr.operands : Instr → List Nat
  | .crc16Updr off len => [off, len]
  | .sum8Updr off len => [off, len]
  | .shaUpdr off len => [off, len]
  | .rc4Xorr off len => [off, len]
  | .crc16Put off => [off]
  | .sum8Put off => [off]
  | .crc16Updb imm => [imm.toNat]
  | .sum8Updb imm => [imm.toNat]
  | .shaUpdb imm => [imm.toNat]
  | .nop => []
  | .srst => []
  | .crc16Init => []
  | .sum8Init => []
  | .shaInit => []
  | .shaUpdk1 => []
  | .shaUpdk2 => []
  | .shaUpddg => []
  | .shaFin => []
  | .kdfRun => []
  | .kdfLatch => []
  | .rc4Ksa => []
  | .rc4Gen => []
  | .frmValidate => []
  | .frmDecode => []
  | .frmRx => []
  | .frmEncode => []

/-- The spec's assembler syntax: the mnemonic, then the operands separated by a comma (30_encoding.md R106). -/
def Instr.assembly (i : Instr) : String :=
  match i.operands with
  | [] => i.row.mnemonic
  | xs => i.row.mnemonic ++ " " ++ ", ".intercalate (xs.map toString)

/-- The pseudo-operations (30_encoding.md R107). -/
inductive Pseudo where
  | crc16 (off len : Nat)
  | sum8 (off len : Nat)
  | sha256 (off len : Nat)
  | kdfStep0
  | kdfStepN
  | rc4Crypt (off len : Nat)
deriving DecidableEq, Repr

/-- The sequence that a pseudo-operation abbreviates (30_encoding.md R107). -/
def Pseudo.expand : Pseudo → List Instr
  | .crc16 off len => [.crc16Init, .crc16Updr off len]
  | .sum8 off len => [.sum8Init, .sum8Updr off len]
  | .sha256 off len => [.shaInit, .shaUpdr off len, .shaFin]
  | .kdfStep0 => [.shaInit, .shaUpdk1, .shaUpdk2, .shaFin]
  | .kdfStepN => [.shaInit, .shaUpddg, .shaUpdk1, .shaUpdk2, .shaFin]
  | .rc4Crypt off len => [.rc4Ksa, .rc4Xorr off len]

end Sys2Proof
end

