-- ==== Sys2Proof/Config.lean ====
section
/-! DEFINITION. What an instantiation of the block fixes, and the free values: the points where the spec lets a read or a
digest be any value (93_implementation_defined.md U1, U2, U3). -/

namespace Sys2Proof

/-- The two open parameters of the block, with the spec's constraints on them (00_scope.md R9, R10; log 7). The bounds
are part of the type, so that a block outside them cannot be written down. -/
structure Config where
  /-- FB_SIZE: the capacity of the frame buffer in bytes (00_scope.md R9). -/
  fbSize : Nat
  /-- KEY_MAX: the capacity of each secret buffer in bytes (00_scope.md R10). -/
  keyMax : Nat
  /-- The longest frame the encoder builds fits (00_scope.md R9). -/
  fbSize_ge : 281 ≤ fbSize
  /-- A 12-bit operand field reaches every byte (00_scope.md R9). -/
  fbSize_le : fbSize ≤ 4095
  /-- (00_scope.md R10) -/
  keyMax_ge : 1 ≤ keyMax
  /-- (00_scope.md R10) -/
  keyMax_le : keyMax ≤ 256
deriving DecidableEq, Repr

/-- The spec's default parameters: FB_SIZE 512 and KEY_MAX 64 (00_scope.md R9, R10). -/
def Config.standard : Config where
  fbSize := 512
  keyMax := 64
  fbSize_ge := by decide
  fbSize_le := by decide
  keyMax_ge := by decide
  keyMax_le := by decide

/-- FREE VALUE (log 4): what the `n`-th open read answers for a buffer byte at address `a` that holds no value
(93_implementation_defined.md U1: any value, and no proof may depend on it). -/
opaque Config.freeByte (n a : Nat) : Byte

/-- FREE VALUE (log 5): what the `n`-th open read answers for a word view at address `a` of a digest or key that holds no
value (93_implementation_defined.md U2). -/
opaque Config.freeWord (n a : Nat) : Word

/-- FREE VALUE (log 6): the digest of a message of 2^61 bytes or more, which SHA-256 does not define
(93_implementation_defined.md U3). -/
opaque Config.freeDigest (n : Nat) : Vector Byte 32

end Sys2Proof
end

