-- ==== Sys2Proof/Machine/State.lean ====
section
/-! DEFINITION. The block's state (10_state.md R20 to R50), the outcome codes (60_exceptions.md R291), the host's events and
the answers to them (20_memory.md R62 to R65), and the state after reset (10_state.md R49). -/

namespace Sys2Proof.Machine

/-- A byte buffer: (index, byte) cells at strictly rising indices. An index with no cell holds no value, which is the
spec's reset content of every buffer (00_scope.md R18; 10_state.md R44, R49). -/
abbrev Memory := List Host.Cell

/-- The reject codes: the data presented is not an acceptable frame (00_scope.md R19; 60_exceptions.md R291, R293). -/
inductive RejectCode where
  | tooShort
  | endMarker
  | crc16
  | decodeShort
  | segmentShort
  | crc8
deriving DecidableEq, Repr

/-- The fault codes: the host broke a rule of the block's programming interface (00_scope.md R19; 60_exceptions.md R291,
R294). They are recorded in STATUS and do not stop the block (60_exceptions.md R297). -/
inductive FaultCode where
  /-- An illegal command word. -/
  | opcode
  /-- FLEN above FB_SIZE, a range beyond FLEN, or a put beyond FB_SIZE. -/
  | range
  /-- The operation would read a byte or word that holds no value. -/
  | undef
  /-- DKV = 0. -/
  | noKey
  /-- RC4V = 0. -/
  | noKs
  /-- SHAV = 0. -/
  | noSha
  /-- DGV = 0. -/
  | noDg
  /-- TXXLEN above 253. -/
  | payload
  /-- K1LEN or K2LEN above KEY_MAX. -/
  | keyLen
deriving DecidableEq, Repr

/-- The content of STATUS.ERR: one of the three kinds of outcome (00_scope.md R19; 60_exceptions.md R290). The codes that
are never written are not in the type (93_implementation_defined.md U10). -/
inductive Err where
  | ok
  | reject (c : RejectCode)
  | fault (c : FaultCode)
deriving DecidableEq, Repr

/-- What the outside world does to the block, one event a step: host accesses at window addresses (20_memory.md R62, R63),
the accesses of a width the window never accepts (R64), and the platform's reset (70_reset_and_hazards.md R320). -/
inductive HostEvent where
  | read8 (a : Nat)
  | write8 (a : Nat) (v : Byte)
  | read16 (a : Nat)
  | write16 (a : Nat) (v : Half)
  | read32 (a : Nat)
  | write32 (a : Nat) (v : Word)
  | platformReset
deriving DecidableEq, Repr

/-- What the last host event was answered with (log 3). -/
inductive Reply where
  /-- Nothing has been asked yet. -/
  | idle
  /-- A write was accepted, or a reset was applied. -/
  | done
  /-- The data of an 8-bit read. -/
  | data8 (v : Byte)
  /-- The data of a 32-bit read. -/
  | data32 (v : Word)
  /-- The access was refused: no data and no change of the block's state (20_memory.md R64). -/
  | busError
deriving DecidableEq, Repr

/-- Eight 32-bit words: the chaining value H[0..7] and the working variables a to h (42_sha256_kdf.md R156, R160). -/
structure Hash8 where
  h0 : Word
  h1 : Word
  h2 : Word
  h3 : Word
  h4 : Word
  h5 : Word
  h6 : Word
  h7 : Word
deriving DecidableEq, Repr

/-- The SHA-256 engine's registers (10_state.md R41). -/
structure ShaEngine where
  /-- H[0..7]. It is written only as a whole, so it holds no value or eight words (log 9). -/
  h : Option Hash8
  /-- MB[0..63], each byte with or without a value. -/
  mb : Memory
  /-- MBN, 0 to 63. -/
  mbn : Fin 64
  /-- MLEN, the number of message bytes absorbed since SHA.INIT, modulo 2^64 (42_sha256_kdf.md R163, R164). -/
  mlen : DWord
  /-- The MODEL's own field (log 6): MLEN has wrapped since SHA.INIT. -/
  wrapped : Bool
deriving DecidableEq, Repr

/-- The state of the block (10_state.md R20) with the model's own fields `cfg`, `host`, `reply` and `freeCount`. -/
structure State where
  /-- The MODEL's own field (log 7): FB_SIZE and KEY_MAX, fixed at instantiation (10_state.md R50). -/
  cfg : Config
  /-- The MODEL's own field (log 2): the host events still to come, in the one total order of 20_memory.md R73. -/
  host : List HostEvent
  /-- The MODEL's own field (log 3): the answer to the last host event. -/
  reply : Reply
  /-- The MODEL's own field (log 4): how many free values have been taken. -/
  freeCount : Nat
  /-- STATUS.VALID (10_state.md R24, R25). -/
  valid : Bool
  /-- STATUS.CRC8OK (10_state.md R24, R25). -/
  crc8ok : Bool
  /-- STATUS.RXENC (10_state.md R24, R25). -/
  rxenc : Bool
  /-- STATUS.SHAV: a SHA-256 message is open (10_state.md R24, R26). -/
  shav : Bool
  /-- STATUS.DGV: DG holds a digest (10_state.md R24, R26). -/
  dgv : Bool
  /-- STATUS.DKV: DK holds a derived key (10_state.md R24, R26). -/
  dkv : Bool
  /-- STATUS.RC4V: S, RI, RJ hold a keyed RC4 state (10_state.md R24, R26). -/
  rc4v : Bool
  /-- STATUS.FAULT, sticky (60_exceptions.md R296). -/
  fault : Bool
  /-- STATUS.ERR, the outcome of the last operation other than NOP (60_exceptions.md R290, R295). -/
  err : Err
  /-- FLEN (10_state.md R28). -/
  flen : BitVec 12
  /-- ITER (10_state.md R29). -/
  iter : Word
  /-- CRC16 (10_state.md R30). -/
  crc16 : Half
  /-- SUM8 (10_state.md R31). -/
  sum8 : Byte
  /-- KSB (10_state.md R32). -/
  ksb : Byte
  /-- K1LEN (10_state.md R33). -/
  k1len : BitVec 9
  /-- K2LEN (10_state.md R33). -/
  k2len : BitVec 9
  /-- TXCMD (10_state.md R34). -/
  txcmd : Half
  /-- TXSTAT (10_state.md R35). -/
  txstat : Byte
  /-- TXREQ (10_state.md R35). -/
  txreq : Byte
  /-- TXVER (10_state.md R36). -/
  txver : Byte
  /-- TXKEYID (10_state.md R36). -/
  txkeyid : Byte
  /-- TXCTL: bit 0 is ENC (10_state.md R37). -/
  txctl : BitVec 1
  /-- TXXLEN (10_state.md R38). -/
  txxlen : Byte
  /-- The SHA-256 engine (10_state.md R41). -/
  sha : ShaEngine
  /-- DG[0..31] (10_state.md R42), written only as a whole (log 9). -/
  dg : Option (Vector Byte 32)
  /-- DK[0..31] (10_state.md R42), written only as a whole (log 9). -/
  dk : Option (Vector Byte 32)
  /-- S[0..255] (10_state.md R43), written first as a whole (log 9). -/
  s : Option (Vector Byte 256)
  /-- RI (10_state.md R43). -/
  ri : Byte
  /-- RJ (10_state.md R43). -/
  rj : Byte
  /-- FB, FB_SIZE bytes (10_state.md R44). -/
  fb : Memory
  /-- K1B, KEY_MAX bytes (10_state.md R44). -/
  k1b : Memory
  /-- K2B, KEY_MAX bytes (10_state.md R44). -/
  k2b : Memory
  /-- TXDEV, 10 bytes (10_state.md R44). -/
  txdev : Memory
  /-- TXX, 253 bytes (10_state.md R44). -/
  txx : Memory
deriving DecidableEq, Repr

/-- The engine after reset (10_state.md R49). -/
def ShaEngine.reset : ShaEngine where
  h := none
  mb := []
  mbn := 0
  mlen := 0
  wrapped := false

/-- The state after reset of a block with the parameters given: every value is 10_state.md R49's; the model's own fields
are empty (log 2, log 3, log 4). -/
def State.resetWith (c : Config) : State where
  cfg := c
  host := []
  reply := .idle
  freeCount := 0
  valid := false
  crc8ok := false
  rxenc := false
  shav := false
  dgv := false
  dkv := false
  rc4v := false
  fault := false
  err := .ok
  flen := 0
  iter := 0
  crc16 := 0xFFFF
  sum8 := 0
  ksb := 0
  k1len := 0
  k2len := 0
  txcmd := 0
  txstat := 0
  txreq := 0
  txver := 0
  txkeyid := 0
  txctl := 0
  txxlen := 0
  sha := ShaEngine.reset
  dg := none
  dk := none
  s := none
  ri := 0
  rj := 0
  fb := []
  k1b := []
  k2b := []
  txdev := []
  txx := []

/-- The machine right after reset, with the spec's default parameters (10_state.md R49; 70_reset_and_hazards.md R320). -/
def State.reset : State := State.resetWith Config.standard

/-- Why the machine stops with a fault: never. Nothing in the block is stuck, and a fault of the block is a recorded
outcome after which it takes the next command (60_exceptions.md R297; 93_implementation_defined.md Part 1; log 3). -/
inductive Fault where
deriving DecidableEq, Repr

/-- Why the machine refuses an instruction. -/
inductive Refusal where
  /-- Raised by no instruction of this model: every operation has its meaning. The constructor is the host's form for an
  arm of `exec` without one; safe, since such a run stops. -/
  | notModelled (mnemonic : String)
deriving DecidableEq, Repr

/-- The outcome of one step or of one operation. -/
abbrev StepOutcome := Host.Outcome State Fault Refusal

/-- A computation of an operation that may raise a fault of the block before it changes anything (60_exceptions.md R294). -/
abbrev Check (α : Type) := Except FaultCode α

end Sys2Proof.Machine
end

