-- ==== Sys2Proof/Machine/Ops.lean ====
section
/-! DEFINITION. The operations over the buffers (00_scope.md R17, R18), the three ways an operation ends
(60_exceptions.md R292 to R294), and the reset (70_reset_and_hazards.md R320). -/

namespace Sys2Proof.Machine

/-- Canonical form of a buffer: indices strictly rise. An unlisted index holds no value, so no cell can repeat what an
unlisted index reads as. -/
abbrev Memory.wf (m : Memory) : Prop := m.Pairwise fun x y => x.1 < y.1

/-- Every byte that holds a value lies inside a buffer of `n` bytes. -/
abbrev Memory.within (m : Memory) (n : Nat) : Prop := ∀ c ∈ m, c.1 < n

/-- The byte at an index, or none where it holds no value (00_scope.md R18). -/
def Memory.read : Memory → Nat → Option Byte
  | [], _ => none
  | (a, b) :: m, i => if a = i then some b else Memory.read m i

/-- The buffer with one byte written, which then holds a value (00_scope.md R17). -/
def Memory.write : Memory → Nat → Byte → Memory
  | [], i, v => [(i, v)]
  | (a, b) :: m, i, v =>
    if i < a then (i, v) :: (a, b) :: m
    else if i = a then (i, v) :: m
    else (a, b) :: Memory.write m i v

/-- The `n` bytes from index `i`, or none when any of them holds no value. -/
def Memory.readRange (m : Memory) : Nat → Nat → Option (List Byte)
  | _, 0 => some []
  | i, n + 1 =>
    match m.read i, Memory.readRange m (i + 1) n with
    | some b, some bs => some (b :: bs)
    | _, _ => none

/-- `MemWrite`: the bytes given, written from index `i` on (00_scope.md R17). -/
def Memory.writeRange : Memory → Nat → List Byte → Memory
  | m, _, [] => m
  | m, i, b :: bs => Memory.writeRange (m.write i b) (i + 1) bs

/-- A read of state that may hold no value: F_UNDEF when it does not (00_scope.md R18). -/
def defined {α : Type} : Option α → Check α
  | some x => .ok x
  | none => .error .undef

/-- `MemRead`: the `n` bytes from index `i`, F_UNDEF when any holds no value (00_scope.md R17). -/
def Memory.memRead (m : Memory) (i n : Nat) : Check (List Byte) := defined (m.readRange i n)

/-- The outcome ok: ERR is 0, FAULT stays (60_exceptions.md R292). -/
def State.succeed (s : State) : State := { s with err := .ok }

/-- A reject: ERR is the code, FAULT stays; the result flags are the operation's own (60_exceptions.md R293). -/
def State.reject (c : RejectCode) (s : State) : State := { s with err := .reject c }

/-- TAKING A FAULT, the block's only exception: ERR is the code, FAULT is set, and nothing else changes. No state is saved
and no control is transferred, so there is no return from it (60_exceptions.md R294, R302, R303). -/
def State.raise (c : FaultCode) (s : State) : State := { s with err := .fault c, fault := true }

/-- One operation as an atomic, all-or-nothing change: every fault is raised on the state before the operation
(00_scope.md R6; 60_exceptions.md R294). Either way the block goes on (60_exceptions.md R297). -/
def State.attempt (s : State) : Check State → StepOutcome
  | .ok t => .next t
  | .error c => .next (s.raise c)

/-- Reset: every state element of the block at its value of 10_state.md R49. The parameters stay, and so do the model's
own records of the host (70_reset_and_hazards.md R320; log 11). -/
def State.resetBlock (s : State) : State :=
  { State.resetWith s.cfg with host := s.host, reply := s.reply, freeCount := s.freeCount }

end Sys2Proof.Machine
end

