-- ==== Sys2Proof/Machine/Operands.lean ====
section
/-! DEFINITION. Where an operation's bytes come from: range and off operands on FB (20_memory.md R70), the secrets, the
digest and the transmit buffers, each with its checks in the order of 60_exceptions.md R298. -/

namespace Sys2Proof.Machine

/-- A range operand: the bytes FB[off..off+len), bounded by FLEN and FLEN by FB_SIZE; off + len is the true sum
(20_memory.md R70). -/
def State.fbRange (s : State) (off len : Nat) : Check (List Byte) :=
  if s.cfg.fbSize < s.flen.toNat ∨ s.flen.toNat < off + len then .error .range
  else s.fb.memRead off len

/-- The current frame FB[0..FLEN) (10_state.md R28; 44_frame_rx.md R212, R216). -/
def State.fbFrame (s : State) : Check (List Byte) := s.fbRange 0 s.flen.toNat

/-- An off operand: writes bytes at FB[off], bounded by FB_SIZE and not by FLEN, which stays (20_memory.md R70). -/
def State.fbPut (s : State) (off : Nat) (bs : List Byte) : Check State :=
  if s.cfg.fbSize < off + bs.length then .error .range
  else .ok { s with fb := s.fb.writeRange off bs }

/-- The secret key1, K1B[0..K1LEN) (42_sha256_kdf.md R175). -/
def State.readKey1 (s : State) : Check (List Byte) :=
  if s.cfg.keyMax < s.k1len.toNat then .error .keyLen else s.k1b.memRead 0 s.k1len.toNat

/-- The secret key2, K2B[0..K2LEN) (42_sha256_kdf.md R176). -/
def State.readKey2 (s : State) : Check (List Byte) :=
  if s.cfg.keyMax < s.k2len.toNat then .error .keyLen else s.k2b.memRead 0 s.k2len.toNat

/-- Both secrets: the two length checks come before any byte is read (42_sha256_kdf.md R179; 60_exceptions.md R298). -/
def State.readKeys (s : State) : Check (List Byte × List Byte) :=
  if s.cfg.keyMax < s.k1len.toNat ∨ s.cfg.keyMax < s.k2len.toNat then .error .keyLen
  else do
    let k1 ← s.k1b.memRead 0 s.k1len.toNat
    let k2 ← s.k2b.memRead 0 s.k2len.toNat
    return (k1, k2)

/-- The secrets when the operation will derive a key, and nothing read or checked when it will not
(60_exceptions.md R298, step 7). -/
def State.readKeysIf (s : State) (derives : Bool) : Check (Option (List Byte × List Byte)) :=
  if derives then do
    let ks ← s.readKeys
    return some ks
  else .ok none

/-- The open SHA-256 message: F_NOSHA when SHAV = 0 (42_sha256_kdf.md R173). -/
def State.openSha (s : State) : Check ShaEngine := if s.shav then .ok s.sha else .error .noSha

/-- The digest DG: F_NODG when DGV = 0 (42_sha256_kdf.md R177, R180; log 8). -/
def State.digest (s : State) : Check (Vector Byte 32) := if s.dgv then defined s.dg else .error .noDg

/-- The derived key DK: F_NOKEY when DKV = 0 (43_rc4.md R196; log 8). -/
def State.derivedKey (s : State) : Check (Vector Byte 32) := if s.dkv then defined s.dk else .error .noKey

/-- The arguments device_id and extra_payload of the encoder, TXDEV[0..10) and TXX[0..x) (45_frame_tx.md R242, R245). -/
def State.readTx (s : State) (x : Nat) : Check (List Byte × List Byte) := do
  let dev ← s.txdev.memRead 0 10
  let extra ← s.txx.memRead 0 x
  return (dev, extra)

end Sys2Proof.Machine
end

