-- ==== Sys2Proof/Machine/Rc4.lean ====
section
/-! DEFINITION. RC4: the key schedule and the keystream (43_rc4.md R191 to R193), and their effects on the state
(R196 to R199). -/

namespace Sys2Proof.Machine

/-- A keyed cipher state: S and the two indices (43_rc4.md R192). -/
structure Rc4 where
  s : Vector Byte 256
  i : Byte
  j : Byte
deriving DecidableEq, Repr

/-- `S[i]`, at an index byte. -/
def sboxGet (s : Vector Byte 256) (i : Byte) : Byte := s[i.toNat]'i.isLt

/-- Swap `S[i]` and `S[j]`. -/
def sboxSwap (s : Vector Byte 256) (i j : Byte) : Vector Byte 256 := s.swap i.toNat j.toNat i.isLt j.isLt

/-- `S[i] ← i` for every i (43_rc4.md R191). -/
def sboxIdentity : Vector Byte 256 := ⟨((List.range 256).map (BitVec.ofNat 8)).toArray, by simp⟩

/-- The key schedule after its first `n` steps: S and j (43_rc4.md R191). Step `i` uses `key[i mod L]`; the spec's domain is
L at least 1, and on an empty key, which no operation schedules, the missing byte reads 0 (log 13). -/
def ksaSteps (key : List Byte) : Nat → Vector Byte 256 × Byte
  | 0 => (sboxIdentity, 0)
  | n + 1 =>
    let p := ksaSteps key n
    let i := BitVec.ofNat 8 n
    let j := p.2 + sboxGet p.1 i + key.getD (n % key.length) 0
    (sboxSwap p.1 i j, j)

/-- `rc4_ksa` (43_rc4.md R191). -/
def rc4Ksa (key : List Byte) : Vector Byte 256 := (ksaSteps key 256).1

/-- The cipher state that a key schedule starts: i = j = 0 (43_rc4.md R192, R193). -/
def Rc4.ofKey (key : List Byte) : Rc4 where
  s := rc4Ksa key
  i := 0
  j := 0

/-- `rc4_next`: one keystream byte and the state after it (43_rc4.md R192). -/
def Rc4.next (c : Rc4) : Byte × Rc4 :=
  let i := c.i + 1
  let j := c.j + sboxGet c.s i
  let s := sboxSwap c.s i j
  (sboxGet s (sboxGet s i + sboxGet s j), { s := s, i := i, j := j })

/-- Each byte xored with the next keystream byte, in order (43_rc4.md R193, R197). -/
def Rc4.xorBytes : List Byte → Rc4 → List Byte × Rc4
  | [], c => ([], c)
  | b :: bs, c =>
    let (k, c') := c.next
    let (out, c'') := Rc4.xorBytes bs c'
    ((b ^^^ k) :: out, c'')

/-- `rc4_crypt`: from a fresh key schedule, keystream byte 0 first (43_rc4.md R193). -/
def rc4Crypt (key data : List Byte) : List Byte := (Rc4.xorBytes data (Rc4.ofKey key)).1

/-- The keyed cipher state: F_NOKS when RC4V = 0 (43_rc4.md R197; log 8). -/
def State.cipher (s : State) : Check Rc4 :=
  if s.rc4v then do
    let sb ← defined s.s
    return { s := sb, i := s.ri, j := s.rj }
  else .error .noKs

/-- The state with S, RI and RJ as given. -/
def State.setCipher (s : State) (c : Rc4) : State := { s with s := some c.s, ri := c.i, rj := c.j }

/-- RC4.KSA's state change (43_rc4.md R196). -/
def State.scheduleKey (s : State) : Check State := do
  let key ← s.derivedKey
  return { s.setCipher (Rc4.ofKey key.toList) with rc4v := true }

/-- RC4.XORR's effect on the bytes it is given and on the cipher state: the keystream continues (43_rc4.md R197). -/
def State.xorKeystream (s : State) (bs : List Byte) : Check (List Byte × State) := do
  let c ← s.cipher
  let p := c.xorBytes bs
  return (p.1, s.setCipher p.2)

end Sys2Proof.Machine
end

