-- ==== Sys2Proof/Machine/Cipher.lean ====
section
/-! DEFINITION. The RC4 unit's operations (43_rc4.md R196 to R198). -/

namespace Sys2Proof.Machine

/-- RC4.KSA (43_rc4.md R196). -/
def execRc4Ksa (s : State) : StepOutcome :=
  s.attempt do
    let t ← s.scheduleKey
    return t.succeed

/-- RC4.XORR: RC4V is checked before the range, and every byte of the range before any is changed (43_rc4.md R197). -/
def execRc4Xorr (off len : Nat) (s : State) : StepOutcome :=
  s.attempt do
    let _ ← s.cipher
    let m ← s.fbRange off len
    let (out, t) ← s.xorKeystream m
    return { t with fb := t.fb.writeRange off out }.succeed

/-- RC4.GEN (43_rc4.md R198). -/
def execRc4Gen (s : State) : StepOutcome :=
  s.attempt do
    let c ← s.cipher
    let p := c.next
    return { s.setCipher p.2 with ksb := p.1 }.succeed

end Sys2Proof.Machine
end

