-- ==== Sys2Proof/Machine/Bytes.lean ====
section
/-! DEFINITION. Byte order: most significant byte first (00_scope.md R16; 20_memory.md R66, R68). -/

namespace Sys2Proof.Machine

/-- `be16(v)`: the two bytes of `v`, high byte first (00_scope.md R16). -/
def be16 (v : Half) : List Byte := [v.extractLsb' 8 8, v.extractLsb' 0 8]

/-- The number whose two big-endian bytes are given (00_scope.md R16). -/
def ofBe16 (b0 b1 : Byte) : Half := b0 ++ b1

/-- `be32(v)`: the four bytes of `v`, high byte first (00_scope.md R16). -/
def be32 (v : Word) : List Byte :=
  [v.extractLsb' 24 8, v.extractLsb' 16 8, v.extractLsb' 8 8, v.extractLsb' 0 8]

/-- The number whose four big-endian bytes are given (00_scope.md R16). -/
def ofBe32 (b0 b1 b2 b3 : Byte) : Word := b0 ++ b1 ++ b2 ++ b3

/-- `be64(v)`: the eight bytes of `v`, high byte first (00_scope.md R16). -/
def be64 (v : DWord) : List Byte := be32 (v.extractLsb' 32 32) ++ be32 (v.extractLsb' 0 32)

end Sys2Proof.Machine
end

