-- ==== Sys2Proof/Machine/Checksum.lean ====
section
/-! DEFINITION. The two checksum functions: CRC16 (40_crc16.md R120 to R122) and the byte sum modulo 256, the source's CRC8
(41_sum8.md R140, R141). -/

namespace Sys2Proof.Machine

/-- One shift of the CRC register: the bit shifted out at the top decides the xor of the polynomial (40_crc16.md R121). -/
def crc16Shift (c : Half) : Half := if c.msb then (c <<< 1) ^^^ 0x1021 else c <<< 1

/-- `k` shifts of the CRC register. -/
def crc16Shifts : Nat → Half → Half
  | 0, c => c
  | k + 1, c => crc16Shifts k (crc16Shift c)

/-- `crc16_byte`: the byte enters at the top, then eight shifts (40_crc16.md R121). -/
def crc16Byte (c : Half) (b : Byte) : Half := crc16Shifts 8 (c ^^^ (b.setWidth 16 <<< 8))

/-- `crc16_from`: the remainder continued over the bytes in order (40_crc16.md R122). -/
def crc16From : Half → List Byte → Half
  | c, [] => c
  | c, b :: bs => crc16From (crc16Byte c b) bs

/-- `crc16`: from the initial value 0xFFFF, with no final xor (40_crc16.md R120, R122). -/
def crc16Of (m : List Byte) : Half := crc16From 0xFFFF m

/-- `sum8_from`: the sum continued over the bytes, carries dropped (41_sum8.md R141). -/
def sum8From : Byte → List Byte → Byte
  | s, [] => s
  | s, b :: bs => sum8From (s + b) bs

/-- `sum8`: the sum of the bytes modulo 256 (41_sum8.md R141). -/
def sum8Of (m : List Byte) : Byte := sum8From 0 m

end Sys2Proof.Machine
end

