-- ==== Sys2Proof/Machine/Flags.lean ====
section
/-! DEFINITION. STATUS as one value: the numbers of the outcome codes (60_exceptions.md R291) and the bit places of the
flags (10_state.md R24, R27). -/

namespace Sys2Proof.Machine

/-- The number of a reject code (60_exceptions.md R291). -/
def RejectCode.code : RejectCode → Byte
  | .tooShort => 0x01
  | .endMarker => 0x02
  | .crc16 => 0x03
  | .decodeShort => 0x04
  | .segmentShort => 0x05
  | .crc8 => 0x06

/-- The number of a fault code (60_exceptions.md R291). -/
def FaultCode.code : FaultCode → Byte
  | .opcode => 0x10
  | .range => 0x11
  | .undef => 0x12
  | .noKey => 0x13
  | .noKs => 0x14
  | .noSha => 0x15
  | .noDg => 0x16
  | .payload => 0x17
  | .keyLen => 0x18

/-- The number in STATUS.ERR (60_exceptions.md R291). -/
def Err.code : Err → Byte
  | .ok => 0x00
  | .reject c => c.code
  | .fault c => c.code

/-- A flag at bit `n` of STATUS. -/
def flagBit (b : Bool) (n : Nat) : Word := (BitVec.ofBool b).setWidth 32 <<< n

/-- STATUS as one value; bits 31:16 read 0 (10_state.md R24, R27). -/
def State.status (s : State) : Word :=
  flagBit s.valid 0 ||| flagBit s.crc8ok 1 ||| flagBit s.rxenc 2 ||| flagBit s.shav 3 ||| flagBit s.dgv 4 |||
    flagBit s.dkv 5 ||| flagBit s.rc4v 6 ||| flagBit s.fault 7 ||| s.err.code.setWidth 32 <<< 8

/-- CRC8OK as the frame operations compute it: the sum of the covered bytes against the crc8 byte
(41_sum8.md R143; 44_frame_rx.md R216). -/
def crc8Matches (sum crc8 : Byte) : Bool := sum == crc8

/-- The rejects an operation can end with (60_exceptions.md R291, R299). -/
def possibleRejects : Instr → List RejectCode
  | .frmValidate => [.tooShort, .endMarker, .crc16]
  | .frmDecode => [.decodeShort, .segmentShort]
  | .frmRx => [.tooShort, .endMarker, .crc16, .decodeShort, .segmentShort, .crc8]
  | .nop => []
  | .srst => []
  | .crc16Init => []
  | .crc16Updb _ => []
  | .crc16Updr _ _ => []
  | .crc16Put _ => []
  | .sum8Init => []
  | .sum8Updb _ => []
  | .sum8Updr _ _ => []
  | .sum8Put _ => []
  | .shaInit => []
  | .shaUpdb _ => []
  | .shaUpdr _ _ => []
  | .shaUpdk1 => []
  | .shaUpdk2 => []
  | .shaUpddg => []
  | .shaFin => []
  | .kdfRun => []
  | .kdfLatch => []
  | .rc4Ksa => []
  | .rc4Xorr _ _ => []
  | .rc4Gen => []
  | .frmEncode => []

/-- The faults an operation can end with; F_OPCODE belongs to the word and is raised when no operation is selected
(60_exceptions.md R291, R299). -/
def possibleFaults : Instr → List FaultCode
  | .crc16Updr _ _ => [.range, .undef]
  | .sum8Updr _ _ => [.range, .undef]
  | .crc16Put _ => [.range]
  | .sum8Put _ => [.range]
  | .shaUpdb _ => [.noSha]
  | .shaFin => [.noSha]
  | .shaUpdr _ _ => [.noSha, .range, .undef]
  | .shaUpdk1 => [.noSha, .keyLen, .undef]
  | .shaUpdk2 => [.noSha, .keyLen, .undef]
  | .shaUpddg => [.noSha, .noDg]
  | .kdfRun => [.keyLen, .undef]
  | .kdfLatch => [.noDg]
  | .rc4Ksa => [.noKey]
  | .rc4Xorr _ _ => [.noKs, .range, .undef]
  | .rc4Gen => [.noKs]
  | .frmValidate => [.range, .undef]
  | .frmDecode => [.range, .undef, .keyLen]
  | .frmRx => [.range, .undef, .keyLen]
  | .frmEncode => [.payload, .keyLen, .undef]
  | .nop => []
  | .srst => []
  | .crc16Init => []
  | .crc16Updb _ => []
  | .sum8Init => []
  | .sum8Updb _ => []
  | .shaInit => []

end Sys2Proof.Machine
end

