-- ==== Sys2Proof/Machine/Sha256.lean ====
section
/-! DEFINITION. SHA-256 as the spec writes it (42_sha256_kdf.md R156 to R163), the streaming engine (R164, R165), and the key
derivation, as a function (R170) and on the state (R179). -/

namespace Sys2Proof.Machine

/-- The initial chaining value H0 (42_sha256_kdf.md R156). -/
def shaH0 : Hash8 where
  h0 := 0x6a09e667
  h1 := 0xbb67ae85
  h2 := 0x3c6ef372
  h3 := 0xa54ff53a
  h4 := 0x510e527f
  h5 := 0x9b05688c
  h6 := 0x1f83d9ab
  h7 := 0x5be0cd19

/-- The table of round constants, line by line as the spec prints it: four words a line (42_sha256_kdf.md R156). -/
def shaKTable : List (BitVec 128) :=
  [0x428a2f98_71374491_b5c0fbcf_e9b5dba5,
   0x3956c25b_59f111f1_923f82a4_ab1c5ed5,
   0xd807aa98_12835b01_243185be_550c7dc3,
   0x72be5d74_80deb1fe_9bdc06a7_c19bf174,
   0xe49b69c1_efbe4786_0fc19dc6_240ca1cc,
   0x2de92c6f_4a7484aa_5cb0a9dc_76f988da,
   0x983e5152_a831c66d_b00327c8_bf597fc7,
   0xc6e00bf3_d5a79147_06ca6351_14292967,
   0x27b70a85_2e1b2138_4d2c6dfc_53380d13,
   0x650a7354_766a0abb_81c2c92e_92722c85,
   0xa2bfe8a1_a81a664b_c24b8b70_c76c51a3,
   0xd192e819_d6990624_f40e3585_106aa070,
   0x19a4c116_1e376c08_2748774c_34b0bcb5,
   0x391c0cb3_4ed8aa4a_5b9cca4f_682e6ff3,
   0x748f82ee_78a5636f_84c87814_8cc70208,
   0x90befffa_a4506ceb_bef9a3f7_c67178f2]

/-- The four words of a line of that table, the first in its top bits. -/
def tableWords (line : BitVec 128) : List Word := [96, 64, 32, 0].map fun low => line.extractLsb' low 32

/-- The round constants K[0..63] (42_sha256_kdf.md R156). -/
def shaK : List Word := shaKTable.flatMap tableWords

/-- `rotr32` (42_sha256_kdf.md R158). -/
def rotr32 (x : Word) (n : Nat) : Word := (x >>> n) ||| (x <<< (32 - n))

/-- `Ch` (42_sha256_kdf.md R158). -/
def shaCh (x y z : Word) : Word := (x &&& y) ^^^ (~~~x &&& z)

/-- `Maj` (42_sha256_kdf.md R158). -/
def shaMaj (x y z : Word) : Word := (x &&& y) ^^^ (x &&& z) ^^^ (y &&& z)

/-- `BSIG0` (42_sha256_kdf.md R158). -/
def bsig0 (x : Word) : Word := rotr32 x 2 ^^^ rotr32 x 13 ^^^ rotr32 x 22

/-- `BSIG1` (42_sha256_kdf.md R158). -/
def bsig1 (x : Word) : Word := rotr32 x 6 ^^^ rotr32 x 11 ^^^ rotr32 x 25

/-- `SSIG0` (42_sha256_kdf.md R158). -/
def ssig0 (x : Word) : Word := rotr32 x 7 ^^^ rotr32 x 18 ^^^ (x >>> 3)

/-- `SSIG1` (42_sha256_kdf.md R158). -/
def ssig1 (x : Word) : Word := rotr32 x 17 ^^^ rotr32 x 19 ^^^ (x >>> 10)

/-- The block as big-endian words, W[0] to W[15] for its 64 bytes (42_sha256_kdf.md R157). -/
def wordsOf : List Byte → List Word
  | b0 :: b1 :: b2 :: b3 :: bs => ofBe32 b0 b1 b2 b3 :: wordsOf bs
  | _ => []

/-- `k` more words of the message schedule on a list held newest first: with `w` = W[t-1], W[t-2], …, the next word is
SSIG1(W[t-2]) + W[t-7] + SSIG0(W[t-15]) + W[t-16] (42_sha256_kdf.md R159). The list starts with the block's sixteen words,
so the default of `getD` is never taken on a 64-byte block (log 13). -/
def extendSchedule : Nat → List Word → List Word
  | 0, w => w
  | k + 1, w => extendSchedule k ((ssig1 (w.getD 1 0) + w.getD 6 0 + ssig0 (w.getD 14 0) + w.getD 15 0) :: w)

/-- W[0..63] of a block (42_sha256_kdf.md R157, R159). -/
def schedule (b : List Byte) : List Word := (extendSchedule 48 (wordsOf b).reverse).reverse

/-- One round of the compression on the working variables a to h, held as h0 to h7 (42_sha256_kdf.md R160). -/
def shaRound (v : Hash8) (k w : Word) : Hash8 :=
  let t1 := v.h7 + bsig1 v.h4 + shaCh v.h4 v.h5 v.h6 + k + w
  let t2 := bsig0 v.h0 + shaMaj v.h0 v.h1 v.h2
  { h0 := t1 + t2, h1 := v.h0, h2 := v.h1, h3 := v.h2, h4 := v.h3 + t1, h5 := v.h4, h6 := v.h5, h7 := v.h6 }

/-- The rounds, one for each constant and schedule word in order (42_sha256_kdf.md R160). -/
def shaRounds : List Word → List Word → Hash8 → Hash8
  | k :: ks, w :: ws, v => shaRounds ks ws (shaRound v k w)
  | _, _, v => v

/-- `sha_compress` (42_sha256_kdf.md R160). -/
def shaCompress (h : Hash8) (b : List Byte) : Hash8 :=
  let v := shaRounds shaK (schedule b) h
  { h0 := h.h0 + v.h0, h1 := h.h1 + v.h1, h2 := h.h2 + v.h2, h3 := h.h3 + v.h3,
    h4 := h.h4 + v.h4, h5 := h.h5 + v.h5, h6 := h.h6 + v.h6, h7 := h.h7 + v.h7 }

/-- The digest of a chaining value: its words big-endian, H[0] first (42_sha256_kdf.md R157, R161). -/
def digestOf (h : Hash8) : Vector Byte 32 :=
  ⟨(be32 h.h0 ++ be32 h.h1 ++ be32 h.h2 ++ be32 h.h3 ++ be32 h.h4 ++ be32 h.h5 ++ be32 h.h6 ++ be32 h.h7).toArray, by
    simp [be32]⟩

/-- How many zero bytes the padding of an `n`-byte message has (42_sha256_kdf.md R161). -/
def padZeroCount (n : Nat) : Nat := (119 - n % 64) % 64

/-- The padded message: 80, the zeros, and the bit length in 64 bits (42_sha256_kdf.md R161, R163). -/
def shaPad (m : List Byte) : List Byte :=
  m ++ [0x80] ++ List.replicate (padZeroCount m.length) 0 ++ be64 (BitVec.ofNat 64 (8 * m.length))

/-- The chaining value over `k` 64-byte blocks in order (42_sha256_kdf.md R161). -/
def shaBlocks : Nat → Hash8 → List Byte → Hash8
  | 0, h, _ => h
  | k + 1, h, p => shaBlocks k (shaCompress h (p.take 64)) (p.drop 64)

/-- `sha256`, for a message below 2^61 bytes (42_sha256_kdf.md R161). -/
def sha256 (m : List Byte) : Vector Byte 32 :=
  digestOf (shaBlocks ((shaPad m).length / 64) shaH0 (shaPad m))

/-- The chaining rounds of the key derivation: `key ← sha256(key ‖ key1 ‖ key2)`, `n` times (42_sha256_kdf.md R170). -/
def chainKey (k1 k2 : List Byte) : Nat → Vector Byte 32 → Vector Byte 32
  | 0, key => key
  | n + 1, key => chainKey k1 k2 n (sha256 (key.toList ++ k1 ++ k2))

/-- `derive_key` (42_sha256_kdf.md R170). -/
def deriveKey (k1 k2 : List Byte) (iterations : Nat) : Vector Byte 32 :=
  chainKey k1 k2 iterations (sha256 (k1 ++ k2))

/-- The engine as SHA.INIT leaves it (42_sha256_kdf.md R172). -/
def ShaEngine.init : ShaEngine where
  h := some shaH0
  mb := []
  mbn := 0
  mlen := 0
  wrapped := false

/-- `pad(b)`: one byte into the block, which is compressed when full; MLEN is not counted (42_sha256_kdf.md R164, R165). -/
def ShaEngine.pad (b : Byte) (e : ShaEngine) : Check ShaEngine :=
  let mb := e.mb.write e.mbn.val b
  if h : e.mbn.val + 1 < 64 then .ok { e with mb := mb, mbn := ⟨e.mbn.val + 1, h⟩ }
  else do
    let h ← defined e.h
    let block ← mb.memRead 0 64
    return { e with h := some (shaCompress h block), mb := mb, mbn := 0 }

/-- `absorb(b)`: `pad(b)` with MLEN counted modulo 2^64 (42_sha256_kdf.md R164). The model's own `wrapped` records that the
count has come round (log 6). -/
def ShaEngine.absorb (b : Byte) (e : ShaEngine) : Check ShaEngine := do
  let e' ← e.pad b
  return { e' with mlen := e.mlen + 1, wrapped := e.wrapped || e.mlen + 1 == 0 }

/-- `absorb_all` (42_sha256_kdf.md R164). -/
def ShaEngine.absorbAll : List Byte → ShaEngine → Check ShaEngine
  | [], e => .ok e
  | b :: bs, e => do
    let e' ← e.absorb b
    ShaEngine.absorbAll bs e'

/-- `while MBN != 56: pad(0x00)`; from any MBN the loop ends within 64 turns (42_sha256_kdf.md R165). -/
def ShaEngine.padZeros : Nat → ShaEngine → Check ShaEngine
  | 0, e => .ok e
  | k + 1, e =>
    if e.mbn.val = 56 then .ok e
    else do
      let e' ← e.pad 0x00
      ShaEngine.padZeros k e'

/-- `pad` of several bytes in order (42_sha256_kdf.md R165). -/
def ShaEngine.padAll : List Byte → ShaEngine → Check ShaEngine
  | [], e => .ok e
  | b :: bs, e => do
    let e' ← e.pad b
    ShaEngine.padAll bs e'

/-- The padding of `finish()`: 80, zeros to byte 56, the bit length (42_sha256_kdf.md R165). -/
def ShaEngine.padToEnd (e : ShaEngine) : Check ShaEngine := do
  let e1 ← e.pad 0x80
  let e2 ← ShaEngine.padZeros 64 e1
  ShaEngine.padAll (be64 (8 * e.mlen)) e2

/-- The message has 2^61 bytes or more, where SHA-256 defines no digest (42_sha256_kdf.md R163; log 6). -/
def ShaEngine.tooLong (e : ShaEngine) : Bool := e.wrapped || 2 ^ 61 ≤ e.mlen.toNat

/-- `finish()` on the open message: DG holds the digest, DGV is 1, SHAV is 0 (42_sha256_kdf.md R165). The digest of a message
that is too long is a free value (93_implementation_defined.md U3; log 6). -/
def State.finishSha (s : State) : Check State := do
  let e ← s.sha.padToEnd
  let h ← defined e.h
  if s.sha.tooLong then
    return { s with sha := e, dg := some (Config.freeDigest s.freeCount), freeCount := s.freeCount + 1, dgv := true, shav := false }
  else
    return { s with sha := e, dg := some (digestOf h), dgv := true, shav := false }

/-- SHA.INIT's state change (42_sha256_kdf.md R172). -/
def State.initSha (s : State) : State := { s with sha := ShaEngine.init, shav := true }

/-- The absorption of bytes into the engine (42_sha256_kdf.md R164). -/
def State.absorbSha (s : State) (bs : List Byte) : Check State := do
  let e ← s.sha.absorbAll bs
  return { s with sha := e }

/-- SHA.INIT, the bytes absorbed, `finish()`: one hash of the derivation (42_sha256_kdf.md R179). -/
def State.hashMessage (s : State) (m : List Byte) : Check State := do
  let t ← s.initSha.absorbSha m
  t.finishSha

/-- The chaining rounds of KDF.RUN: each hashes the digest, key1 and key2 (42_sha256_kdf.md R179). -/
def State.kdfRounds (k1 k2 : List Byte) : Nat → State → Check State
  | 0, s => .ok s
  | n + 1, s => do
    let d ← s.digest
    let t ← s.hashMessage (d.toList ++ k1 ++ k2)
    State.kdfRounds k1 k2 n t

/-- KDF.LATCH's state change: DK is DG (42_sha256_kdf.md R180). -/
def State.latchKey (s : State) : Check State := do
  let d ← s.digest
  return { s with dk := some d, dkv := true }

/-- The state effects of KDF.RUN once the secrets are read (42_sha256_kdf.md R179). -/
def State.deriveKeyInto (k1 k2 : List Byte) (s : State) : Check State := do
  let t ← s.hashMessage (k1 ++ k2)
  let u ← State.kdfRounds k1 k2 s.iter.toNat t
  u.latchKey

end Sys2Proof.Machine
end

