-- ==== Sys2Proof/Machine/Frame.lean ====
section
/-! DEFINITION. The wire frame (30_encoding.md part A) and the frame functions `validate_frame`, `decode` (44_frame_rx.md
R211, R214) and `encode_reply` (45_frame_tx.md R241) as functions of byte sequences, and the state effects that the frame
operations share. -/

namespace Sys2Proof.Machine

/-- FIXED_LEN: header and plain section (00_scope.md R13). -/
abbrev fixedLen : Nat := 21

/-- FOOT_LEN (00_scope.md R13). -/
abbrev footLen : Nat := 3

/-- MIN_FRAME: the minimum total frame size (00_scope.md R13). -/
abbrev minFrame : Nat := 26

/-- TXX_MAX: the largest extra payload (00_scope.md R11). -/
abbrev txxMax : Nat := 253

/-- start1 (00_scope.md R13; 30_encoding.md R81). -/
def startByte1 : Byte := 0xAA

/-- start2 (00_scope.md R13; 30_encoding.md R81). -/
def startByte2 : Byte := 0x55

/-- end_marker (00_scope.md R13; 30_encoding.md R89). -/
def endMarker : Byte := 0x55

/-- The ack bit of a reply's command id (00_scope.md R13; 30_encoding.md R86). -/
def ackBit : Half := 0x8000

/-- Byte `i` of a sequence; the rules read only indices below its length, so the default is never taken (log 13). -/
def byteAt (f : List Byte) (i : Nat) : Byte := f.getD i 0

/-- `f[a..b)` (00_scope.md R15). -/
def slice (f : List Byte) (a b : Nat) : List Byte := (f.drop a).take (b - a)

/-- The command ids of the wire (30_encoding.md R93). The block gives none of them a meaning (30_encoding.md R94). -/
inductive WireCommand where
  | registerUnit
  | cmd1
  | captureAliases
  | measureData
  | captureDynamic
  | captureStatic
  | serviceData
deriving DecidableEq, Repr

/-- The inbound command_id (30_encoding.md R93). -/
def WireCommand.id : WireCommand → Half
  | .registerUnit => 0x0000
  | .cmd1 => 0x0001
  | .captureAliases => 0x0002
  | .measureData => 0x0003
  | .captureDynamic => 0x0004
  | .captureStatic => 0x0005
  | .serviceData => 0x0006

/-- The reply's command_id: the id with the ack bit (30_encoding.md R86, R93). -/
def WireCommand.replyId (c : WireCommand) : Half := c.id ||| ackBit

/-- The fields of a frame whose segment is in clear (30_encoding.md R81, R84, R87, R89, R90). -/
structure Frame where
  start1 : Byte
  start2 : Byte
  version : Byte
  flags : Byte
  deviceId : List Byte
  commandId : Half
  keyId : Byte
  timestamp : List Byte
  seq : Byte
  dataLen : Byte
  data : List Byte
  crc8 : Byte
  crc16 : Half
  endMarker : Byte
deriving DecidableEq, Repr

/-- `parse`, for a sequence of at least 26 bytes; it checks nothing (30_encoding.md R90). -/
def parse (f : List Byte) : Frame where
  start1 := byteAt f 0
  start2 := byteAt f 1
  version := byteAt f 2
  flags := byteAt f 3
  deviceId := slice f 4 14
  commandId := ofBe16 (byteAt f 14) (byteAt f 15)
  keyId := byteAt f 16
  timestamp := slice f 17 20
  seq := byteAt f 20
  dataLen := byteAt f 21
  data := slice f 22 (f.length - 4)
  crc8 := byteAt f (f.length - 4)
  crc16 := ofBe16 (byteAt f (f.length - 3)) (byteAt f (f.length - 2))
  endMarker := byteAt f (f.length - 1)

/-- The bytes the CRC16 covers, F[0..n-3) (30_encoding.md R89; 40_crc16.md R129). -/
def coveredBytes (f : List Byte) : List Byte := slice f 0 (f.length - footLen)

/-- The CRC16 field, F[n-3] and F[n-2] (30_encoding.md R89). -/
def crcField (f : List Byte) : Half := ofBe16 (byteAt f (f.length - 3)) (byteAt f (f.length - 2))

/-- The segment, F[21..n-3): by position, never by data_len (30_encoding.md R80, R88). -/
def segmentOf (f : List Byte) : List Byte := slice f fixedLen (f.length - footLen)

/-- `flags & 0x01 = 1`: the segment is encrypted (30_encoding.md R82). -/
def isEncrypted (f : List Byte) : Bool := byteAt f 3 &&& 0x01 == 0x01

/-- The crc8 of a segment of at least two bytes: whether the sum of all but its last byte is its last byte
(41_sum8.md R143). -/
def segmentSum (seg : List Byte) : Byte := sum8Of (slice seg 0 (seg.length - 1))

/-- The last byte of a segment (30_encoding.md R87). -/
def segmentCrc8 (seg : List Byte) : Byte := byteAt seg (seg.length - 1)

/-- `validate_frame`: ok for true, the code for false (44_frame_rx.md R211). -/
def validateFrame (f : List Byte) : Except RejectCode Unit :=
  if f.length < 3 then .error .tooShort
  else if byteAt f (f.length - 1) ≠ endMarker then .error .endMarker
  else if crc16Of (coveredBytes f) ≠ crcField f then .error .crc16
  else .ok ()

/-- `decode`: the frame with its segment in clear and `crc8_ok`, or the decode error (44_frame_rx.md R214). -/
def decodeFrame (f k1 k2 : List Byte) (iterations : Nat) : Except RejectCode (List Byte × Bool) :=
  if f.length < fixedLen then .error .decodeShort
  else if f.length < minFrame then .error .segmentShort
  else
    let seg := if isEncrypted f then rc4Crypt (deriveKey k1 k2 iterations).toList (segmentOf f) else segmentOf f
    .ok (slice f 0 fixedLen ++ seg ++ f.drop (f.length - footLen), crc8Matches (segmentSum seg) (segmentCrc8 seg))

/-- The arguments of `encode_reply` (45_frame_tx.md R241, R242). -/
structure ReplyArgs where
  deviceId : List Byte
  commandId : Half
  status : Byte
  request : Byte
  extra : List Byte
  shouldEncrypt : Bool
  version : Byte
  keyId : Byte
deriving DecidableEq, Repr

/-- The header of a reply; bits 7:1 of flags are 0 (45_frame_tx.md R241). -/
def replyHeader (r : ReplyArgs) : List Byte :=
  [startByte1, startByte2, r.version, if r.shouldEncrypt then 0x01 else 0x00]

/-- The plain section of a reply: the ack bit set, timestamp and seq zero (45_frame_tx.md R241). -/
def replyPlain (r : ReplyArgs) : List Byte :=
  r.deviceId ++ be16 (r.commandId ||| ackBit) ++ [r.keyId, 0x00, 0x00, 0x00, 0x00]

/-- data_len, status, request byte and payload; data_len counts the payload bytes with status and request
(30_encoding.md R87; 45_frame_tx.md R241). -/
def replyBody (r : ReplyArgs) : List Byte :=
  [BitVec.ofNat 8 (2 + r.extra.length), r.status, r.request] ++ r.extra

/-- The clear segment: the body and its sum (45_frame_tx.md R241). -/
def replySegment (r : ReplyArgs) : List Byte := replyBody r ++ [sum8Of (replyBody r)]

/-- Header, plain section and the segment as transmitted (45_frame_tx.md R241). -/
def replyPrefix (r : ReplyArgs) (seg : List Byte) : List Byte := replyHeader r ++ replyPlain r ++ seg

/-- The whole frame: the CRC16 over everything so far, then the end marker (45_frame_tx.md R241). -/
def replyFrame (r : ReplyArgs) (seg : List Byte) : List Byte :=
  replyPrefix r seg ++ be16 (crc16Of (replyPrefix r seg)) ++ [endMarker]

/-- `encode_reply` (45_frame_tx.md R241). -/
def encodeReply (r : ReplyArgs) (k1 k2 : List Byte) (iterations : Nat) : List Byte :=
  replyFrame r
    (if r.shouldEncrypt then rc4Crypt (deriveKey k1 k2 iterations).toList (replySegment r) else replySegment r)

/-- KDF.RUN, RC4.KSA and the keystream over a segment, with all their state effects: the frame operations' cipher step, from
a fresh derivation and a fresh key schedule (43_rc4.md R199; 44_frame_rx.md R216; 45_frame_tx.md R245). -/
def State.deriveAndCrypt (k1 k2 seg : List Byte) (s : State) : Check (List Byte × State) := do
  let t ← s.deriveKeyInto k1 k2
  let u ← t.scheduleKey
  u.xorKeystream seg

/-- The state changes of FRM.VALIDATE on the frame read (44_frame_rx.md R212). -/
def State.validated (f : List Byte) (s : State) : State :=
  if f.length < 3 then { s with valid := false, err := .reject .tooShort }
  else if byteAt f (f.length - 1) ≠ endMarker then { s with valid := false, err := .reject .endMarker }
  else
    let c := crc16Of (coveredBytes f)
    if c ≠ crcField f then { s with crc16 := c, valid := false, err := .reject .crc16 }
    else { s with crc16 := c, valid := true, err := .ok }

/-- The decode step's report on the clear segment: SUM8, CRC8OK and the outcome ok (44_frame_rx.md R216). -/
def State.reportSegment (seg : List Byte) (s : State) : State :=
  { s with sum8 := segmentSum seg, crc8ok := crc8Matches (segmentSum seg) (segmentCrc8 seg), err := .ok }

/-- The state changes of FRM.DECODE on the frame read, `keys` being the secrets when flags bit 0 is set
(44_frame_rx.md R216). -/
def State.decoded (f : List Byte) (keys : Option (List Byte × List Byte)) (s : State) : Check State :=
  if f.length < fixedLen then .ok { s with crc8ok := false, rxenc := false, err := .reject .decodeShort }
  else if f.length < minFrame then .ok { s with crc8ok := false, rxenc := false, err := .reject .segmentShort }
  else
    match keys with
    | none => .ok ({ s with rxenc := false }.reportSegment (segmentOf f))
    | some (k1, k2) => do
      let (seg, t) ← { s with rxenc := true }.deriveAndCrypt k1 k2 (segmentOf f)
      return { t with fb := t.fb.writeRange fixedLen seg }.reportSegment seg

/-- Whether the decode step of this frame derives a key: it is reached and flags bit 0 is set
(44_frame_rx.md R216, R220; 60_exceptions.md R298 step 7). -/
def decodeDerives (f : List Byte) : Bool := minFrame ≤ f.length && isEncrypted f

/-- The encoder's arguments from the registers and buffers (45_frame_tx.md R242). -/
def State.replyArgs (s : State) (dev extra : List Byte) : ReplyArgs where
  deviceId := dev
  commandId := s.txcmd
  status := s.txstat
  request := s.txreq
  extra := extra
  shouldEncrypt := s.txctl == 1
  version := s.txver
  keyId := s.txkeyid

/-- The last part of FRM.ENCODE: the frame into FB, its CRC16 and its length (45_frame_tx.md R245). -/
def State.storeReply (r : ReplyArgs) (seg : List Byte) (s : State) : State :=
  { s with
    fb := s.fb.writeRange 0 (replyFrame r seg)
    crc16 := crc16Of (replyPrefix r seg)
    flen := BitVec.ofNat 12 (28 + r.extra.length)
    err := .ok }

/-- The state changes of FRM.ENCODE once every argument is read, `keys` being the secrets when TXCTL.ENC is 1
(45_frame_tx.md R245). -/
def State.encoded (r : ReplyArgs) (keys : Option (List Byte × List Byte)) (s : State) : Check State :=
  let t := { s with sum8 := sum8Of (replyBody r) }
  match keys with
  | none => .ok (t.storeReply r (replySegment r))
  | some (k1, k2) => do
    let (seg, u) ← t.deriveAndCrypt k1 k2 (replySegment r)
    return u.storeReply r seg

end Sys2Proof.Machine
end

