-- ==== Sys2Proof/Machine/Codec.lean ====
section
/-! DEFINITION. The frame operations (44_frame_rx.md R212, R216, R220; 45_frame_tx.md R245). -/

namespace Sys2Proof.Machine

/-- FRM.VALIDATE (44_frame_rx.md R212). -/
def execFrmValidate (s : State) : StepOutcome :=
  s.attempt do
    let f ← s.fbFrame
    return s.validated f

/-- FRM.DECODE: the secrets are checked and read, when they are needed, before anything is written (44_frame_rx.md R216). -/
def execFrmDecode (s : State) : StepOutcome :=
  s.attempt do
    let f ← s.fbFrame
    let keys ← s.readKeysIf (decodeDerives f)
    s.decoded f keys

/-- FRM.RX: every fault of either part comes before anything is written; the decode step follows only a valid frame; a crc8
mismatch is a reject (44_frame_rx.md R220). -/
def execFrmRx (s : State) : StepOutcome :=
  s.attempt do
    let f ← s.fbFrame
    let keys ← s.readKeysIf ((validateFrame f).toBool && decodeDerives f)
    let t := s.validated f
    if t.valid then do
      let u ← t.decoded f keys
      if u.err = .ok ∧ u.crc8ok = false then return u.reject .crc8
      else return u
    else return { t with crc8ok := false, rxenc := false }

/-- FRM.ENCODE: F_PAYLOAD, then the secrets when TXCTL.ENC is 1, then TXDEV and TXX (45_frame_tx.md R245). -/
def execFrmEncode (s : State) : StepOutcome :=
  s.attempt do
    if txxMax < s.txxlen.toNat then .error .payload
    else do
      let keys ← s.readKeysIf (s.txctl == 1)
      let (dev, extra) ← s.readTx s.txxlen.toNat
      s.encoded (s.replyArgs dev extra) keys

end Sys2Proof.Machine
end

