-- ==== Sys2Proof/Machine/Control.lean ====
section
/-! DEFINITION. The control operations NOP and SRST (46_control_and_context.md R260, R261). -/

namespace Sys2Proof.Machine

/-- NOP: nothing, not even ERR (46_control_and_context.md R260). -/
def execNop (s : State) : StepOutcome := .next s

/-- SRST: every state element at its reset value (46_control_and_context.md R261). -/
def execSrst (s : State) : StepOutcome := .next s.resetBlock

end Sys2Proof.Machine
end

