-- ==== Sys2Proof/Machine/Crc16.lean ====
section
/-! DEFINITION. The CRC16 unit's operations (40_crc16.md R125 to R128). -/

namespace Sys2Proof.Machine

/-- CRC16.INIT (40_crc16.md R125). -/
def execCrc16Init (s : State) : StepOutcome := .next { s with crc16 := 0xFFFF }.succeed

/-- CRC16.UPDB (40_crc16.md R126). -/
def execCrc16Updb (imm : Byte) (s : State) : StepOutcome :=
  .next { s with crc16 := crc16Byte s.crc16 imm }.succeed

/-- CRC16.UPDR (40_crc16.md R127). -/
def execCrc16Updr (off len : Nat) (s : State) : StepOutcome :=
  s.attempt do
    let m ← s.fbRange off len
    return { s with crc16 := crc16From s.crc16 m }.succeed

/-- CRC16.PUT (40_crc16.md R128). -/
def execCrc16Put (off : Nat) (s : State) : StepOutcome :=
  s.attempt do
    let t ← s.fbPut off (be16 s.crc16)
    return t.succeed

end Sys2Proof.Machine
end

