-- ==== Sys2Proof/Machine/Sha.lean ====
section
/-! DEFINITION. The operations of the SHA-256 engine and the key derivation (42_sha256_kdf.md R172 to R180). -/

namespace Sys2Proof.Machine

/-- SHA.INIT (42_sha256_kdf.md R172). -/
def execShaInit (s : State) : StepOutcome := .next s.initSha.succeed

/-- SHA.UPDB (42_sha256_kdf.md R173). -/
def execShaUpdb (imm : Byte) (s : State) : StepOutcome :=
  s.attempt do
    let _ ← s.openSha
    let t ← s.absorbSha [imm]
    return t.succeed

/-- SHA.UPDR (42_sha256_kdf.md R174). -/
def execShaUpdr (off len : Nat) (s : State) : StepOutcome :=
  s.attempt do
    let _ ← s.openSha
    let x ← s.fbRange off len
    let t ← s.absorbSha x
    return t.succeed

/-- SHA.UPDK1 (42_sha256_kdf.md R175). -/
def execShaUpdk1 (s : State) : StepOutcome :=
  s.attempt do
    let _ ← s.openSha
    let x ← s.readKey1
    let t ← s.absorbSha x
    return t.succeed

/-- SHA.UPDK2 (42_sha256_kdf.md R176). -/
def execShaUpdk2 (s : State) : StepOutcome :=
  s.attempt do
    let _ ← s.openSha
    let x ← s.readKey2
    let t ← s.absorbSha x
    return t.succeed

/-- SHA.UPDDG (42_sha256_kdf.md R177). -/
def execShaUpddg (s : State) : StepOutcome :=
  s.attempt do
    let _ ← s.openSha
    let d ← s.digest
    let t ← s.absorbSha d.toList
    return t.succeed

/-- SHA.FIN (42_sha256_kdf.md R178). -/
def execShaFin (s : State) : StepOutcome :=
  s.attempt do
    let _ ← s.openSha
    let t ← s.finishSha
    return t.succeed

/-- KDF.RUN: both secrets are checked and read before anything is written (42_sha256_kdf.md R179). -/
def execKdfRun (s : State) : StepOutcome :=
  s.attempt do
    let (k1, k2) ← s.readKeys
    let t ← s.deriveKeyInto k1 k2
    return t.succeed

/-- KDF.LATCH (42_sha256_kdf.md R180). -/
def execKdfLatch (s : State) : StepOutcome :=
  s.attempt do
    let t ← s.latchKey
    return t.succeed

end Sys2Proof.Machine
end

