-- ==== Sys2Proof/Machine/Sum8.lean ====
section
/-! DEFINITION. The SUM8 unit's operations (41_sum8.md R145 to R148). -/

namespace Sys2Proof.Machine

/-- SUM8.INIT (41_sum8.md R145). -/
def execSum8Init (s : State) : StepOutcome := .next { s with sum8 := 0x00 }.succeed

/-- SUM8.UPDB (41_sum8.md R146). -/
def execSum8Updb (imm : Byte) (s : State) : StepOutcome := .next { s with sum8 := s.sum8 + imm }.succeed

/-- SUM8.UPDR (41_sum8.md R147). -/
def execSum8Updr (off len : Nat) (s : State) : StepOutcome :=
  s.attempt do
    let m ← s.fbRange off len
    return { s with sum8 := sum8From s.sum8 m }.succeed

/-- SUM8.PUT (41_sum8.md R148). -/
def execSum8Put (off : Nat) (s : State) : StepOutcome :=
  s.attempt do
    let t ← s.fbPut off [s.sum8]
    return t.succeed

end Sys2Proof.Machine
end

