-- ==== Sys2Proof/Machine/Dispatch.lean ====
section
/-! DEFINITION. The meaning of each operation, one arm per row of the opcode map (30_encoding.md R104). -/

namespace Sys2Proof.Machine

def exec (i : Instr) (s : State) : Host.Outcome State Fault Refusal :=
  match i with
  | .nop => Sys2Proof.Machine.execNop s
  | .srst => Sys2Proof.Machine.execSrst s
  | .crc16Init => Sys2Proof.Machine.execCrc16Init s
  | .crc16Updb imm => Sys2Proof.Machine.execCrc16Updb imm s
  | .crc16Updr off len => Sys2Proof.Machine.execCrc16Updr off len s
  | .crc16Put off => Sys2Proof.Machine.execCrc16Put off s
  | .sum8Init => Sys2Proof.Machine.execSum8Init s
  | .sum8Updb imm => Sys2Proof.Machine.execSum8Updb imm s
  | .sum8Updr off len => Sys2Proof.Machine.execSum8Updr off len s
  | .sum8Put off => Sys2Proof.Machine.execSum8Put off s
  | .shaInit => Sys2Proof.Machine.execShaInit s
  | .shaUpdb imm => Sys2Proof.Machine.execShaUpdb imm s
  | .shaUpdr off len => Sys2Proof.Machine.execShaUpdr off len s
  | .shaUpdk1 => Sys2Proof.Machine.execShaUpdk1 s
  | .shaUpdk2 => Sys2Proof.Machine.execShaUpdk2 s
  | .shaUpddg => Sys2Proof.Machine.execShaUpddg s
  | .shaFin => Sys2Proof.Machine.execShaFin s
  | .kdfRun => Sys2Proof.Machine.execKdfRun s
  | .kdfLatch => Sys2Proof.Machine.execKdfLatch s
  | .rc4Ksa => Sys2Proof.Machine.execRc4Ksa s
  | .rc4Xorr off len => Sys2Proof.Machine.execRc4Xorr off len s
  | .rc4Gen => Sys2Proof.Machine.execRc4Gen s
  | .frmValidate => Sys2Proof.Machine.execFrmValidate s
  | .frmDecode => Sys2Proof.Machine.execFrmDecode s
  | .frmRx => Sys2Proof.Machine.execFrmRx s
  | .frmEncode => Sys2Proof.Machine.execFrmEncode s

end Sys2Proof.Machine
end

