-- ==== Sys2Proof/Machine/HostPort.lean ====
section
/-! DEFINITION. The host window (10_state.md R45 to R47; 20_memory.md R60 to R65): which address is what, and what a host read
or write of it does. Addresses are relative to the window's base (20_memory.md R72; log 14). -/

namespace Sys2Proof.Machine

/-- The host-addressable registers (10_state.md R45). -/
inductive Reg where
  | cmd
  | status
  | flen
  | iter
  | crc16
  | sum8
  | ksb
  | k1len
  | k2len
  | txcmd
  | txstat
  | txreq
  | txver
  | txkeyid
  | txctl
  | txxlen
  | dgw (k : Fin 8)
  | dkw (k : Fin 8)
deriving DecidableEq, Repr

/-- The buffers (10_state.md R44). -/
inductive Buf where
  | fb
  | k1b
  | k2b
  | txdev
  | txx
deriving DecidableEq, Repr

/-- A register's address (10_state.md R45). -/
def Reg.address : Reg → Nat
  | .cmd => 0x0000
  | .status => 0x0004
  | .flen => 0x0008
  | .iter => 0x000C
  | .crc16 => 0x0010
  | .sum8 => 0x0014
  | .ksb => 0x0018
  | .k1len => 0x001C
  | .k2len => 0x0020
  | .txcmd => 0x0024
  | .txstat => 0x0028
  | .txreq => 0x002C
  | .txver => 0x0030
  | .txkeyid => 0x0034
  | .txctl => 0x0038
  | .txxlen => 0x003C
  | .dgw k => 0x0040 + 4 * k.val
  | .dkw k => 0x0060 + 4 * k.val

/-- A register's width in bits (10_state.md R45). -/
def Reg.width : Reg → Nat
  | .cmd => 32
  | .status => 16
  | .flen => 12
  | .iter => 32
  | .crc16 => 16
  | .sum8 => 8
  | .ksb => 8
  | .k1len => 9
  | .k2len => 9
  | .txcmd => 16
  | .txstat => 8
  | .txreq => 8
  | .txver => 8
  | .txkeyid => 8
  | .txctl => 1
  | .txxlen => 8
  | .dgw _ => 32
  | .dkw _ => 32

/-- A register's access (10_state.md R45). -/
inductive RegAccess where
  | readOnly
  | writeOnly
  | readWrite
deriving DecidableEq, Repr

/-- Which accesses a register takes (10_state.md R45). -/
def Reg.access : Reg → RegAccess
  | .cmd => .writeOnly
  | .status => .readOnly
  | .flen => .readWrite
  | .iter => .readWrite
  | .crc16 => .readOnly
  | .sum8 => .readOnly
  | .ksb => .readOnly
  | .k1len => .readWrite
  | .k2len => .readWrite
  | .txcmd => .readWrite
  | .txstat => .readWrite
  | .txreq => .readWrite
  | .txver => .readWrite
  | .txkeyid => .readWrite
  | .txctl => .readWrite
  | .txxlen => .readWrite
  | .dgw _ => .readOnly
  | .dkw _ => .readOnly

/-- The registers in the order of 10_state.md R45. -/
def allRegs : List Reg :=
  [.cmd, .status, .flen, .iter, .crc16, .sum8, .ksb, .k1len, .k2len, .txcmd, .txstat, .txreq, .txver, .txkeyid, .txctl,
   .txxlen] ++ (List.finRange 8).map .dgw ++ (List.finRange 8).map .dkw

/-- The register whose address is exactly `a` (20_memory.md R62). -/
def regAt (a : Nat) : Option Reg := allRegs.find? fun r => r.address == a

/-- The first address of a buffer's window (10_state.md R45). -/
def Buf.base : Buf → Nat
  | .txdev => 0x0100
  | .txx => 0x0200
  | .k1b => 0x0400
  | .k2b => 0x0500
  | .fb => 0x1000

/-- A buffer's size (10_state.md R44). -/
def Buf.size (c : Config) : Buf → Nat
  | .txdev => 10
  | .txx => 253
  | .k1b => c.keyMax
  | .k2b => c.keyMax
  | .fb => c.fbSize

/-- The buffers in the order of 10_state.md R45. -/
def allBufs : List Buf := [.txdev, .txx, .k1b, .k2b, .fb]

/-- The buffer whose window holds `a`, within the buffer's size (20_memory.md R63). -/
def bufAt (c : Config) (a : Nat) : Option Buf :=
  allBufs.find? fun b => b.base ≤ a && a < b.base + b.size c

/-- A buffer's contents. -/
def State.buffer (s : State) : Buf → Memory
  | .fb => s.fb
  | .k1b => s.k1b
  | .k2b => s.k2b
  | .txdev => s.txdev
  | .txx => s.txx

/-- The state with a buffer's contents replaced. -/
def State.setBuffer (s : State) (b : Buf) (m : Memory) : State :=
  match b with
  | .fb => { s with fb := m }
  | .k1b => { s with k1b := m }
  | .k2b => { s with k2b := m }
  | .txdev => { s with txdev := m }
  | .txx => { s with txx := m }

/-- Word `k` of a digest: its bytes 4k to 4k+3, big-endian (10_state.md R39). -/
def digestWord (d : Vector Byte 32) (k : Fin 8) : Word :=
  ofBe32 (d[4 * k.val]'(by omega)) (d[4 * k.val + 1]'(by omega)) (d[4 * k.val + 2]'(by omega)) (d[4 * k.val + 3]'(by omega))

/-- A word view: the value it shows, or none where the read is open (10_state.md R39, R40; 00_scope.md R18). -/
def wordView (flag : Bool) (d : Option (Vector Byte 32)) (k : Fin 8) : Option Word :=
  if flag then d.map fun v => digestWord v k else none

/-- What a register shows a host read, with 0 in every bit above its width (10_state.md R46), or none where the value is open
(10_state.md R39, R40). A read of CMD returns 0 (10_state.md R23). -/
def State.readReg (s : State) : Reg → Option Word
  | .cmd => some 0
  | .status => some s.status
  | .flen => some (s.flen.setWidth 32)
  | .iter => some s.iter
  | .crc16 => some (s.crc16.setWidth 32)
  | .sum8 => some (s.sum8.setWidth 32)
  | .ksb => some (s.ksb.setWidth 32)
  | .k1len => some (s.k1len.setWidth 32)
  | .k2len => some (s.k2len.setWidth 32)
  | .txcmd => some (s.txcmd.setWidth 32)
  | .txstat => some (s.txstat.setWidth 32)
  | .txreq => some (s.txreq.setWidth 32)
  | .txver => some (s.txver.setWidth 32)
  | .txkeyid => some (s.txkeyid.setWidth 32)
  | .txctl => some (s.txctl.setWidth 32)
  | .txxlen => some (s.txxlen.setWidth 32)
  | .dgw k => wordView s.dgv s.dg k
  | .dkw k => wordView s.dkv s.dk k

/-- A host write of a register other than CMD: the low bits are stored, and a write to a read-only register is ignored
(10_state.md R46, R47). A write to CMD runs a command, in `State.perform`; here it stores nothing (10_state.md R23). -/
def State.writeReg (s : State) (r : Reg) (v : Word) : State :=
  match r with
  | .cmd => s
  | .status => s
  | .flen => { s with flen := v.setWidth 12 }
  | .iter => { s with iter := v }
  | .crc16 => s
  | .sum8 => s
  | .ksb => s
  | .k1len => { s with k1len := v.setWidth 9 }
  | .k2len => { s with k2len := v.setWidth 9 }
  | .txcmd => { s with txcmd := v.setWidth 16 }
  | .txstat => { s with txstat := v.setWidth 8 }
  | .txreq => { s with txreq := v.setWidth 8 }
  | .txver => { s with txver := v.setWidth 8 }
  | .txkeyid => { s with txkeyid := v.setWidth 8 }
  | .txctl => { s with txctl := v.setWidth 1 }
  | .txxlen => { s with txxlen := v.setWidth 8 }
  | .dgw _ => s
  | .dkw _ => s

/-- The state with the answer to the host recorded (log 3). -/
def State.answer (s : State) (r : Reply) : State := { s with reply := r }

/-- A refused access: no data, no change of the block's state, no FAULT and no ERR (20_memory.md R64; log 3). -/
def State.refuseAccess (s : State) : State := s.answer .busError

/-- The state after one more free value has been taken (log 4). -/
def State.takeFree (s : State) : State := { s with freeCount := s.freeCount + 1 }

/-- `HostRead32(a)` (20_memory.md R62, R64, R65); an open word is a free value (log 5). -/
def State.hostRead32 (s : State) (a : Nat) : State :=
  match regAt a with
  | none => s.refuseAccess
  | some r =>
    match s.readReg r with
    | some v => s.answer (.data32 v)
    | none => (s.answer (.data32 (Config.freeWord s.freeCount a))).takeFree

/-- `HostRead8(a)` (20_memory.md R63 to R65); a byte that holds no value reads as a free value (00_scope.md R18; log 4). -/
def State.hostRead8 (s : State) (a : Nat) : State :=
  match bufAt s.cfg a with
  | none => s.refuseAccess
  | some b =>
    match (s.buffer b).read (a - b.base) with
    | some v => s.answer (.data8 v)
    | none => (s.answer (.data8 (Config.freeByte s.freeCount a))).takeFree

/-- `HostWrite8(a, v)`: the byte becomes defined (20_memory.md R63, R64). -/
def State.hostWrite8 (s : State) (a : Nat) (v : Byte) : State :=
  match bufAt s.cfg a with
  | none => s.refuseAccess
  | some b => (s.setBuffer b ((s.buffer b).write (a - b.base) v)).answer .done

end Sys2Proof.Machine
end

