-- ==== Sys2Proof/Machine/Command.lean ====
section
/-! DEFINITION. Running a command word, and what one host event does (10_state.md R23; 20_memory.md R62 to R64). -/

namespace Sys2Proof.Machine

/-- A command word is consumed as it is written: the operation it encodes is executed, and an illegal word is the fault
F_OPCODE (10_state.md R23; 20_memory.md R75; 30_encoding.md R102, R105). -/
def State.command (s : State) (w : Word) : StepOutcome :=
  match decode w with
  | .ok i => exec i s
  | .error _ => .next (s.raise .opcode)

/-- `HostWrite32(a, v)`: a write to CMD runs the command, which is complete when the write is (20_memory.md R62, R65;
00_scope.md R7). -/
def State.hostWrite32 (s : State) (a : Nat) (v : Word) : StepOutcome :=
  match regAt a with
  | none => .next s.refuseAccess
  | some .cmd => (s.answer .done).command v
  | some r => .next ((s.writeReg r v).answer .done)

/-- What one host event does. The window accepts no 16-bit access anywhere (20_memory.md R62 to R64; log 12); the platform's
reset leaves the block as SRST does (70_reset_and_hazards.md R320; log 11). -/
def State.perform (s : State) : HostEvent → StepOutcome
  | .read8 a => .next (s.hostRead8 a)
  | .write8 a v => .next (s.hostWrite8 a v)
  | .read16 _ => .next s.refuseAccess
  | .write16 _ _ => .next s.refuseAccess
  | .read32 a => .next (s.hostRead32 a)
  | .write32 a v => s.hostWrite32 a v
  | .platformReset => .next (s.resetBlock.answer .done)

/-- The event that writes a command word to CMD, as the table numbers its bits: the bits at or above `nbits` are 0. -/
def commandEvent (nbits w : Nat) : HostEvent := .write32 Reg.cmd.address (BitVec.ofNat 32 (w % 2 ^ nbits))

/-- Running a sequence of operations in order: the commands of a host program with no access between them
(30_encoding.md R106, R107). -/
def execAll : List Instr → State → StepOutcome
  | [], s => .next s
  | i :: is, s =>
    match exec i s with
    | .next t => execAll is t
    | .fault r => .fault r
    | .refused r => .refused r

end Sys2Proof.Machine
end

