-- ==== Sys2Proof/Machine/Step.lean ====
section
/-! DEFINITION. One step of the machine: the next host event in the one total order (20_memory.md R73). -/

namespace Sys2Proof.Machine

/-- One step: the block takes the host's next event and completes it. With no event to come it does nothing
(70_reset_and_hazards.md R321; log 1, log 10). -/
def step (s : State) : Host.Outcome State Fault Refusal :=
  match s.host with
  | [] => .next s
  | e :: es => { s with host := es }.perform e

/-- The state in which the host's next event is the write of the command word `w` to CMD: the block fetches nothing, and a
command reaches it in no other way (10_state.md R22, R23; log 2). -/
def State.withFetchWord (s : State) (nbits w : Nat) : State := { s with host := commandEvent nbits w :: s.host }

end Sys2Proof.Machine
end

