-- ==== Sys2Proof/Safety.lean ====
section
/-! DEFINITION. The words that claims are stated in: what a buffer holds, when the state keeps the spec's promises about
itself, and what counts as a run without a turned-away command. -/

namespace Sys2Proof.Machine

/-- The bytes `bs` stand in the buffer from index `i` on, every one of them defined (00_scope.md R15, R18). -/
abbrev Memory.Holds (m : Memory) (i : Nat) (bs : List Byte) : Prop := ∀ k < bs.length, m.read (i + k) = bs[k]?

/-- Some byte of the `n` from index `i` holds no value (00_scope.md R18). -/
abbrev Memory.Lacks (m : Memory) (i n : Nat) : Prop := ∃ k < n, m.read (i + k) = none

/-- `m'` is `m` with the bytes `bs` written from index `i` on and every other byte as before. -/
abbrev Memory.WrittenTo (m m' : Memory) (i : Nat) (bs : List Byte) : Prop :=
  ∀ a, m'.read a = if i ≤ a ∧ a < i + bs.length then bs[a - i]? else m.read a

/-- Every buffer is in canonical form and inside its size (10_state.md R44). -/
abbrev State.BuffersOk (s : State) : Prop := ∀ b ∈ allBufs, (s.buffer b).wf ∧ (s.buffer b).within (b.size s.cfg)

/-- The message block is in canonical form and has 64 bytes (10_state.md R41). -/
abbrev ShaEngine.BlockOk (e : ShaEngine) : Prop := e.mb.wf ∧ e.mb.within 64

/-- The engine can absorb: H holds a value and so do the MBN bytes filled so far (10_state.md R41). -/
abbrev ShaEngine.Ready (e : ShaEngine) : Prop := e.h.isSome ∧ ∀ i < e.mbn.val, (e.mb.read i).isSome

/-- A validity flag that is 1 tells the truth: the state it speaks of holds a value (10_state.md R26). -/
abbrev State.FlagsTrue (s : State) : Prop :=
  (s.shav = true → s.sha.Ready) ∧ (s.dgv = true → s.dg.isSome) ∧ (s.dkv = true → s.dk.isSome) ∧ (s.rc4v = true → s.s.isSome)

/-- S, where it holds a value, is a permutation of the byte values 0 to 255 (10_state.md R43). -/
abbrev State.SboxOk (s : State) : Prop := ∀ sb, s.s = some sb → sb.toList.Perm sboxIdentity.toList

/-- A fault in ERR is recorded in the sticky bit (60_exceptions.md R294, R296). -/
abbrev State.FaultRecorded (s : State) : Prop := ∀ c, s.err = .fault c → s.fault = true

/-- What every state a run reaches satisfies. -/
structure State.Inv (s : State) : Prop where
  buffers : s.BuffersOk
  block : s.sha.BlockOk
  flags : s.FlagsTrue
  sbox : s.SboxOk
  recorded : s.FaultRecorded

/-- Two states that agree on everything the spec gives the block: only the model's records of the host and of the free values
taken may differ (log 2, log 3, log 4). -/
abbrev State.SameBlock (s t : State) : Prop := t = { s with host := t.host, reply := t.reply, freeCount := t.freeCount }

/-- No command has been turned away since reset: the test a host makes once for a whole sequence (60_exceptions.md R296). -/
abbrev State.AllAccepted (s : State) : Prop := s.fault = false

/-- The cipher state `n` keystream bytes later (43_rc4.md R192). -/
def Rc4.advance : Nat → Rc4 → Rc4
  | 0, c => c
  | n + 1, c => Rc4.advance n c.next.2

/-- Keystream byte `n` from here, the first being byte 0 (43_rc4.md R192, R193). -/
def Rc4.keystreamByte (c : Rc4) (n : Nat) : Byte := (c.advance n).next.1

/-- The registers the host loads before a frame operation, in the spec's words: FB holds the frame of FLEN bytes. -/
abbrev State.HasFrame (s : State) (f : List Byte) : Prop :=
  s.flen.toNat ≤ s.cfg.fbSize ∧ f.length = s.flen.toNat ∧ s.fb.Holds 0 f

/-- Both secrets are loaded: K1B and K2B hold them, at legal lengths (10_state.md R33). -/
abbrev State.HasKeys (s : State) (k1 k2 : List Byte) : Prop :=
  s.k1len.toNat ≤ s.cfg.keyMax ∧ s.k2len.toNat ≤ s.cfg.keyMax ∧ k1.length = s.k1len.toNat ∧ k2.length = s.k2len.toNat ∧
    s.k1b.Holds 0 k1 ∧ s.k2b.Holds 0 k2

/-- A range operand that passes the checks of 20_memory.md R70, with its bytes. -/
abbrev State.HasRange (s : State) (off len : Nat) (bs : List Byte) : Prop :=
  s.flen.toNat ≤ s.cfg.fbSize ∧ off + len ≤ s.flen.toNat ∧ bs.length = len ∧ s.fb.Holds off bs

/-- The word carries the operation and is its encoding (30_encoding.md R100, R101). -/
abbrev EncodedAs (i : Instr) (w : Word) : Prop := decode w = .ok i ∧ encode i = w

/-- A word with this opcode that is not among the legal ones is the fault F_OPCODE (30_encoding.md R102). -/
abbrev LegalOnly (op : Byte) (legal : Word → Prop) : Prop :=
  ∀ w, opField w = op → ¬ legal w → ∀ s : State, s.command w = .next (s.raise .opcode)

/-- The word of an operation with a range operand (30_encoding.md R101). -/
abbrev rangeWord (op : Word) (a b : BitVec 12) : Word := op <<< 24 ||| a.setWidth 32 <<< 12 ||| b.setWidth 32

/-- The word of an operation with an offset operand (30_encoding.md R101). -/
abbrev offWord (op : Word) (a : BitVec 12) : Word := op <<< 24 ||| a.setWidth 32 <<< 12

/-- The state of every element of the block after reset: the table of 10_state.md R49. -/
abbrev State.AtResetValues (s : State) : Prop :=
  s.status = 0 ∧ s.flen = 0 ∧ s.iter = 0 ∧ s.k1len = 0 ∧ s.k2len = 0 ∧ s.crc16 = 0xFFFF ∧ s.sum8 = 0 ∧ s.ksb = 0 ∧
    s.txcmd = 0 ∧ s.txstat = 0 ∧ s.txreq = 0 ∧ s.txver = 0 ∧ s.txkeyid = 0 ∧ s.txctl = 0 ∧ s.txxlen = 0 ∧
    s.sha.mbn = 0 ∧ s.sha.mlen = 0 ∧ s.ri = 0 ∧ s.rj = 0 ∧ s.sha.h = none ∧ (∀ i, s.sha.mb.read i = none) ∧
    s.dg = none ∧ s.dk = none ∧ s.s = none ∧ ∀ b i, (s.buffer b).read i = none

/-- Every byte of every buffer holds a value and the length registers are legal (60_exceptions.md R294). -/
abbrev State.Loaded (s : State) : Prop :=
  (∀ b i, i < b.size s.cfg → ((s.buffer b).read i).isSome) ∧ s.flen.toNat ≤ s.cfg.fbSize ∧
    s.k1len.toNat ≤ s.cfg.keyMax ∧ s.k2len.toNat ≤ s.cfg.keyMax ∧ s.txxlen.toNat ≤ 253

/-- The message of the last hash that KDF.RUN makes (42_sha256_kdf.md R179). -/
def lastKdfMessage (k1 k2 : List Byte) : Nat → List Byte
  | 0 => k1 ++ k2
  | n + 1 => (deriveKey k1 k2 n).toList ++ k1 ++ k2

/-- The engine is where SHA.INIT and the absorption of `msg` leave it. -/
abbrev ShaEngine.HasAbsorbed (e : ShaEngine) (msg : List Byte) : Prop := ShaEngine.init.absorbAll msg = .ok e

/-- The engine is where `finish()` leaves it after the bytes of `msg` (42_sha256_kdf.md R165). -/
abbrev ShaEngine.HasFinished (e : ShaEngine) (msg : List Byte) : Prop :=
  ∃ e0, ShaEngine.init.absorbAll msg = .ok e0 ∧ e0.padToEnd = .ok e

/-- The SHA engine, the digest, the key and the cipher state are where KDF.RUN, RC4.KSA and an RC4.XORR of `n` bytes leave
them, with their validity flags: what a frame operation that encrypts or decrypts does to them (42_sha256_kdf.md R179;
43_rc4.md R196, R197, R199). -/
abbrev State.LeftByCipherStep (t : State) (k1 k2 : List Byte) (iterations n : Nat) : Prop :=
  let key := deriveKey k1 k2 iterations
  let c := (Rc4.ofKey key.toList).advance n
  t.sha.HasFinished (lastKdfMessage k1 k2 iterations) ∧ t.shav = false ∧ t.dg = some key ∧ t.dgv = true ∧
    t.dk = some key ∧ t.dkv = true ∧ t.s = some c.s ∧ t.ri = c.i ∧ t.rj = c.j ∧ t.rc4v = true ∧ t.ri = BitVec.ofNat 8 n

/-- The SHA engine, the digest, the key and the cipher state are untouched, with their validity flags. -/
abbrev State.SameCipher (s t : State) : Prop :=
  t.sha = s.sha ∧ t.shav = s.shav ∧ t.dg = s.dg ∧ t.dgv = s.dgv ∧ t.dk = s.dk ∧ t.dkv = s.dkv ∧ t.s = s.s ∧ t.ri = s.ri ∧
    t.rj = s.rj ∧ t.rc4v = s.rc4v

end Sys2Proof.Machine
end

