-- ==== Sys2Proof/WellFormed.lean ====
section
/-! DEFINITION. Which terms of `Instr` a command word can carry: every offset and length fits its 12-bit field
(30_encoding.md R100, R101). -/

namespace Sys2Proof

/-- A number fits a 12-bit operand field (30_encoding.md R100). -/
abbrev fitsField (n : Nat) : Prop := n < 4096

/-- The instruction is one that a command word can encode. Only the forms range and off have an operand that could be too
large; an immediate byte always fits. -/
abbrev Instr.WellFormed : Instr → Prop
  | .crc16Updr off len => fitsField off ∧ fitsField len
  | .sum8Updr off len => fitsField off ∧ fitsField len
  | .shaUpdr off len => fitsField off ∧ fitsField len
  | .rc4Xorr off len => fitsField off ∧ fitsField len
  | .crc16Put off => fitsField off
  | .sum8Put off => fitsField off
  | .nop => True
  | .srst => True
  | .crc16Init => True
  | .crc16Updb _ => True
  | .sum8Init => True
  | .sum8Updb _ => True
  | .shaInit => True
  | .shaUpdb _ => True
  | .shaUpdk1 => True
  | .shaUpdk2 => True
  | .shaUpddg => True
  | .shaFin => True
  | .kdfRun => True
  | .kdfLatch => True
  | .rc4Ksa => True
  | .rc4Gen => True
  | .frmValidate => True
  | .frmDecode => True
  | .frmRx => True
  | .frmEncode => True

end Sys2Proof
end

