-- ==== Sys2Proof/Certificates/Slice0/Obligations.lean ====
section
/-! DEFINITION. The statements about the model, one `def Obligations.<Name> : Prop` each; what a name of the form
`State.HasFrame` says stands in Sys2Proof/Safety.lean. -/

open Sys2Proof Sys2Proof.Machine

/-! ## The command word -/

/-- Encoding then decoding gives the operation back, with every operand at every value its field admits
(30_encoding.md R100, R101, R104). -/
def Obligations.EncodedOperationDecodesToItself : Prop :=
  ∀ i : Instr, i.WellFormed → decode (encode i) = .ok i

/-- A word that decodes is the encoding of what it decodes to: no bit of it is dropped (30_encoding.md R101, R102). -/
def Obligations.DecodedWordIsTheEncoding : Prop :=
  ∀ (w : Word) (i : Instr), decode w = .ok i → i.WellFormed ∧ encode i = w

/-- R103: a word is exactly one operation of the opcode map with its operands, or illegal; OP is looked at first and then
the must-be-zero fields. -/
def Obligations.EveryWordIsOneOperationOrIllegal : Prop :=
  ∀ w : Word,
    (∀ r ∈ opcodeMap, ∀ r' ∈ opcodeMap, r.matches w → r'.matches w → r = r') ∧
      ((∃ r ∈ opcodeMap, r.matches w ∧ ∃ i, decode w = .ok i ∧ i.row = r ∧ encode i = w) ∨
        ((∀ r ∈ opcodeMap, ¬ r.matches w) ∧
          ((opField w ∉ opcodeMap.map OpRow.op ∧ decode w = .error (.unassignedOpcode (opField w))) ∨
            (opField w ∈ opcodeMap.map OpRow.op ∧ decode w = .error (.operandNotZero (opField w))))))

/-- The example words of R104, one of each operand form, decode to the operations they stand for. -/
def Obligations.ExampleWordsDecode : Prop :=
  decode 0x11000003 = .ok (.crc16Updb 3) ∧ decode 0x12000019 = .ok (.crc16Updr 0 25) ∧
    decode 0x22015003 = .ok (.sum8Updr 21 3) ∧ decode 0x13019000 = .ok (.crc16Put 25) ∧ decode 0x52000000 = .ok .frmRx

/-- A step whose event writes a legal word to CMD is the execution of the operation it decodes to, on the state with that
event taken and the write answered (10_state.md R23; 20_memory.md R75; log 2, log 3). -/
def Obligations.StepRunsTheDecodedOperation : Prop :=
  ∀ (s : State) (w : Word) (es : List HostEvent) (i : Instr), s.host = .write32 0x0000 w :: es → decode w = .ok i →
    step s = exec i { s with host := es, reply := .done }

/-- R102: a word that is no row of the opcode map performs nothing and is the fault F_OPCODE. That the event is taken
from `host` and the write answered in `reply` is the model's form (log 2, log 3). -/
def Obligations.IllegalWordIsOpcodeFault : Prop :=
  ∀ (s : State) (w : Word) (es : List HostEvent), s.host = .write32 0x0000 w :: es → (∀ r ∈ opcodeMap, ¬ r.matches w) →
    step s = .next { s with host := es, reply := .done, err := .fault .opcode, fault := true }

/-! ## Outcomes and the whole machine -/

/-- Nothing in the block is stuck: every step of every state answers a next state (93_implementation_defined.md Part 1). -/
def Obligations.EveryStepCompletes : Prop :=
  ∀ s : State, ∃ t, step s = .next t

/-- R294: an operation that ends in a fault writes ERR and FAULT and changes nothing else; and no frame content is a fault:
with the buffers defined and the length registers legal, the frame operations never end in one. -/
def Obligations.FaultingOperationChangesNothingElse : Prop :=
  (∀ (i : Instr) (s t : State) (c : FaultCode), i ≠ .nop → exec i s = .next t → t.err = .fault c →
      t = { s with err := .fault c, fault := true }) ∧
    (∀ (i : Instr) (s t : State), i ∈ [Instr.frmValidate, .frmDecode, .frmRx, .frmEncode] → s.Loaded → exec i s = .next t →
      ∀ c, t.err ≠ .fault c)

/-- R296: FAULT is set by every fault, kept by every other outcome, and cleared only by SRST and the platform's reset
(events of the model's list `host`, log 2, log 11). -/
def Obligations.FaultBitIsSticky : Prop :=
  (∀ (i : Instr) (s t : State), exec i s = .next t → i ≠ .nop → i ≠ .srst →
      (t.fault = true ↔ s.fault = true ∨ ∃ c, t.err = .fault c)) ∧
    (∀ (s : State) (w : Word), (∀ i, decode w ≠ .ok i) → ∃ t, s.command w = .next t ∧ t.fault = true) ∧
    (∀ s : State, exec .nop s = .next s) ∧
    (∀ s t : State, exec .srst s = .next t → t.fault = false) ∧
    (∀ (s t : State) (es : List HostEvent), s.host = .platformReset :: es → step s = .next t → t.fault = false) ∧
    (∀ s t : State, step s = .next t → s.fault = true → t.fault = false →
      ∃ es, s.host = .platformReset :: es ∨ s.host = .write32 0x0000 0x01000000 :: es)

/-- R297: no command reads FAULT or ERR: with other values in them it does the same to everything else and, NOP apart,
ends with the same code. -/
def Obligations.NoCommandReadsFaultOrErr : Prop :=
  ∀ (s : State) (w : Word) (e : Err) (f : Bool), ∃ t t', s.command w = .next t ∧
    { s with err := e, fault := f }.command w = .next t' ∧ t' = { t with err := t'.err, fault := t'.fault } ∧
    (decode w ≠ .ok .nop → t'.err = t.err)

/-- The possible outcomes of each operation in a state that keeps the spec's promises (60_exceptions.md R291, R299). -/
def Obligations.OperationEndsInAListedOutcome : Prop :=
  ∀ (i : Instr) (s t : State), s.Inv → i ≠ .nop → exec i s = .next t →
    t.err = .ok ∨ (∃ c ∈ possibleRejects i, t.err = .reject c) ∨ ∃ c ∈ possibleFaults i, t.err = .fault c

/-- The invariant of the model, that every step keeps: buffers in canonical form and inside their sizes, validity flags that
tell the truth, S a permutation, faults recorded (10_state.md R26, R43, R44; 60_exceptions.md R294). The parameters stay. -/
def Obligations.EveryStepKeepsTheInvariant : Prop :=
  ∀ s t : State, s.Inv → step s = .next t → t.Inv ∧ t.cfg = s.cfg

/-- The state after reset satisfies the invariant, whatever the parameters. -/
def Obligations.ResetSatisfiesTheInvariant : Prop :=
  ∀ c : Config, (State.resetWith c).Inv

/-- R49: the reset values, of the state after reset with any parameters, after SRST, and after the platform's reset. -/
def Obligations.ResetValuesAreTheTable : Prop :=
  (∀ c : Config, (State.resetWith c).AtResetValues) ∧
    (∀ s : State, ∃ t, exec .srst s = .next t ∧ t.AtResetValues) ∧
    (∀ (s : State) (es : List HostEvent), s.host = .platformReset :: es → ∃ t, step s = .next t ∧ t.AtResetValues)

/-- The platform's reset and SRST leave the same state, the reset state; the model's records of the host and of the free
values taken stay, which is the model's choice (46_control_and_context.md R261; 70_reset_and_hazards.md R320; log 11). -/
def Obligations.SrstAndPlatformResetAgree : Prop :=
  ∀ (s : State) (es : List HostEvent),
    s.host = .platformReset :: es ∨ s.host = .write32 0x0000 0x01000000 :: es →
    step s = .next { State.resetWith s.cfg with host := es, reply := .done, freeCount := s.freeCount }

/-- R261: SRST completes with every state element of the block at its reset value. No other operation clears FAULT or makes
the derived key or a secret unreadable. -/
def Obligations.SrstResetsTheBlock : Prop :=
  EncodedAs .srst 0x01000000 ∧
    (∀ s : State, ∃ t, exec .srst s = .next t ∧ (State.resetWith s.cfg).SameBlock t) ∧
    (∀ (i : Instr) (s t : State), i ≠ .srst → exec i s = .next t →
      (s.fault = true → t.fault = true) ∧ (s.dkv = true → s.dk.isSome → t.dkv = true ∧ t.dk.isSome) ∧
        t.k1b = s.k1b ∧ t.k2b = s.k2b)

/-- R260: NOP writes nothing, not even ERR; it is the only operation that does not write ERR, and the only legal word with
its opcode. -/
def Obligations.NopChangesNothing : Prop :=
  EncodedAs .nop 0x00000000 ∧ LegalOnly 0x00 (fun w => w = 0x00000000) ∧ (∀ s : State, exec .nop s = .next s) ∧
    (∀ (i : Instr) (s : State) (e : Err), i ≠ .nop →
      ∃ t t', exec i s = .next t ∧ exec i { s with err := e } = .next t' ∧ t'.err = t.err)

/-- The result flags VALID, CRC8OK and RXENC are written only by the receive operations and by reset, each by the operations
of 10_state.md R24 (10_state.md R24, R25). -/
def Obligations.ResultFlagsHaveTheirWriters : Prop :=
  ∀ (i : Instr) (s t : State), exec i s = .next t → i ≠ .srst →
    (i ≠ .frmValidate → i ≠ .frmRx → t.valid = s.valid) ∧
      (i ≠ .frmDecode → i ≠ .frmRx → t.crc8ok = s.crc8ok ∧ t.rxenc = s.rxenc)

/-- DK and DKV change only by a reset or by a command that derives or latches a key: no host write of a secret, a length or
ITER touches them (10_state.md R42; 70_reset_and_hazards.md R328). -/
def Obligations.DerivedKeyIsASnapshot : Prop :=
  ∀ s t : State, step s = .next t → ¬ (t.dk = s.dk ∧ t.dkv = s.dkv) →
    ∃ es, s.host = .platformReset :: es ∨
      ∃ w i, s.host = .write32 0x0000 w :: es ∧ decode w = .ok i ∧
        i ∈ [Instr.srst, .kdfRun, .kdfLatch, .frmDecode, .frmRx, .frmEncode]

/-- No operation but SRST writes K1B, K2B, TXDEV or TXX, nor any register of the host's but FLEN, which only FRM.ENCODE
writes (10_state.md R44; 45_frame_tx.md R245). -/
def Obligations.OperationsLeaveTheHostsBuffers : Prop :=
  ∀ (i : Instr) (s t : State), exec i s = .next t → i ≠ .srst →
    t.k1b = s.k1b ∧ t.k2b = s.k2b ∧ t.txdev = s.txdev ∧ t.txx = s.txx ∧ t.iter = s.iter ∧ t.k1len = s.k1len ∧
      t.k2len = s.k2len ∧ t.txcmd = s.txcmd ∧ t.txstat = s.txstat ∧ t.txreq = s.txreq ∧ t.txver = s.txver ∧
      t.txkeyid = s.txkeyid ∧ t.txctl = s.txctl ∧ t.txxlen = s.txxlen ∧ (i ≠ .frmEncode → t.flen = s.flen)

/-- With the validity flag it needs at 0, an operation is the fault that names it, whatever else holds
(10_state.md R26; 60_exceptions.md R298 step 2). -/
def Obligations.ClearedValidityFlagFaults : Prop :=
  ∀ (s : State) (imm : Byte) (off len : Nat),
    (s.shav = false →
      exec (.shaUpdb imm) s = .next (s.raise .noSha) ∧ exec (.shaUpdr off len) s = .next (s.raise .noSha) ∧
        exec .shaUpdk1 s = .next (s.raise .noSha) ∧ exec .shaUpdk2 s = .next (s.raise .noSha) ∧
        exec .shaUpddg s = .next (s.raise .noSha) ∧ exec .shaFin s = .next (s.raise .noSha)) ∧
      (s.shav = true → s.dgv = false → exec .shaUpddg s = .next (s.raise .noDg)) ∧
      (s.dgv = false → exec .kdfLatch s = .next (s.raise .noDg)) ∧
      (s.dkv = false → exec .rc4Ksa s = .next (s.raise .noKey)) ∧
      (s.rc4v = false → exec (.rc4Xorr off len) s = .next (s.raise .noKs) ∧ exec .rc4Gen s = .next (s.raise .noKs))

/-! ## The CRC16 unit -/

/-- R125 and R126: CRC16.INIT and CRC16.UPDB, their words, and their effect for every state and byte; nothing but CRC16 and
ERR changes. -/
def Obligations.Crc16InitAndByteUpdate : Prop :=
  EncodedAs .crc16Init 0x10000000 ∧ LegalOnly 0x10 (fun w => w = 0x10000000) ∧
    (∀ imm, EncodedAs (.crc16Updb imm) (0x11000000 ||| imm.setWidth 32)) ∧
    LegalOnly 0x11 (fun w => ∃ imm : Byte, w = 0x11000000 ||| imm.setWidth 32) ∧
    ∀ (s : State) (imm : Byte),
    exec .crc16Init s = .next { s with crc16 := 0xFFFF, err := .ok } ∧
      exec (.crc16Updb imm) s = .next { s with crc16 := crc16Byte s.crc16 imm, err := .ok }

/-- R127: CRC16.UPDR over a range that is in bounds and defined continues the remainder over its bytes in order; out of
bounds it is F_RANGE, over an undefined byte F_UNDEF. Nothing else changes. -/
def Obligations.Crc16RangeUpdate : Prop :=
  (∀ a b, EncodedAs (.crc16Updr a.toNat b.toNat) (rangeWord 0x12 a b)) ∧ ∀ (s : State) (off len : Nat),
    (∀ bs, s.HasRange off len bs →
      exec (.crc16Updr off len) s = .next { s with crc16 := bs.foldl crc16Byte s.crc16, err := .ok }) ∧
      (s.cfg.fbSize < s.flen.toNat ∨ s.flen.toNat < off + len →
        exec (.crc16Updr off len) s = .next { s with err := .fault .range, fault := true }) ∧
      (s.flen.toNat ≤ s.cfg.fbSize → off + len ≤ s.flen.toNat → s.fb.Lacks off len →
        exec (.crc16Updr off len) s = .next { s with err := .fault .undef, fault := true })

/-- R128: CRC16.PUT writes the two bytes of CRC16, high byte first, at its offset, bounded by FB_SIZE and not by FLEN; every
other byte of FB and every other state element stays. -/
def Obligations.Crc16PutStoresBigEndian : Prop :=
  (∀ a, EncodedAs (.crc16Put a.toNat) (offWord 0x13 a)) ∧ ∀ (s : State) (off : Nat),
    (off + 2 ≤ s.cfg.fbSize →
      ∃ m, exec (.crc16Put off) s = .next { s with fb := m, err := .ok } ∧
        s.fb.WrittenTo m off [(s.crc16 >>> 8).setWidth 8, s.crc16.setWidth 8]) ∧
      (s.cfg.fbSize < off + 2 → exec (.crc16Put off) s = .next { s with err := .fault .range, fault := true })

/-- The byte-table form of the CRC is the bit-serial one (40_crc16.md section 1, consequence (e)). -/
def Obligations.Crc16TableFormAgrees : Prop :=
  ∀ (c : Half) (b : Byte), crc16Byte c b = (c <<< 8) ^^^ crc16Byte 0 ((c >>> 8).setWidth 8 ^^^ b)

/-- The residue of a message with its own CRC appended is 0 (40_crc16.md section 1, consequence (b)). -/
def Obligations.Crc16ResidueIsZero : Prop :=
  ∀ m : List Byte, crc16Of (m ++ be16 (crc16Of m)) = 0

/-- A single flipped bit anywhere in a message with its CRC is always detected (40_crc16.md section 1, consequence (d)). -/
def Obligations.Crc16DetectsEverySingleBitFlip : Prop :=
  ∀ (m : List Byte) (k j : Nat) (b : Byte), crc16Of m = 0 → m[k]? = some b → j < 8 →
    crc16Of (m.set k (b ^^^ (1#8 <<< j))) ≠ 0

/-! ## The SUM8 unit -/

/-- R145 and R146: SUM8.INIT and SUM8.UPDB, their words, and their effect for every state and byte; nothing but SUM8 and
ERR changes. -/
def Obligations.Sum8InitAndByteUpdate : Prop :=
  EncodedAs .sum8Init 0x20000000 ∧ LegalOnly 0x20 (fun w => w = 0x20000000) ∧
    (∀ imm, EncodedAs (.sum8Updb imm) (0x21000000 ||| imm.setWidth 32)) ∧
    LegalOnly 0x21 (fun w => ∃ imm : Byte, w = 0x21000000 ||| imm.setWidth 32) ∧
    ∀ (s : State) (imm : Byte),
    exec .sum8Init s = .next { s with sum8 := 0, err := .ok } ∧
      exec (.sum8Updb imm) s = .next { s with sum8 := BitVec.ofNat 8 (s.sum8.toNat + imm.toNat), err := .ok }

/-- R147: SUM8.UPDR adds the bytes of a range as numbers, modulo 256; out of bounds it is F_RANGE, over an undefined byte
F_UNDEF. Nothing else changes. -/
def Obligations.Sum8RangeUpdate : Prop :=
  (∀ a b, EncodedAs (.sum8Updr a.toNat b.toNat) (rangeWord 0x22 a b)) ∧ ∀ (s : State) (off len : Nat),
    (∀ bs, s.HasRange off len bs →
      exec (.sum8Updr off len) s =
        .next { s with sum8 := BitVec.ofNat 8 (s.sum8.toNat + (bs.map BitVec.toNat).sum), err := .ok }) ∧
      (s.cfg.fbSize < s.flen.toNat ∨ s.flen.toNat < off + len →
        exec (.sum8Updr off len) s = .next { s with err := .fault .range, fault := true }) ∧
      (s.flen.toNat ≤ s.cfg.fbSize → off + len ≤ s.flen.toNat → s.fb.Lacks off len →
        exec (.sum8Updr off len) s = .next { s with err := .fault .undef, fault := true })

/-- R148: SUM8.PUT writes the byte SUM8 at its offset, bounded by FB_SIZE and not by FLEN; every other byte of FB and every
other state element stays. -/
def Obligations.Sum8PutStoresTheSum : Prop :=
  (∀ a, EncodedAs (.sum8Put a.toNat) (offWord 0x23 a)) ∧ ∀ (s : State) (off : Nat),
    (off + 1 ≤ s.cfg.fbSize →
      ∃ m, exec (.sum8Put off) s = .next { s with fb := m, err := .ok } ∧ s.fb.WrittenTo m off [s.sum8]) ∧
      (s.cfg.fbSize < off + 1 → exec (.sum8Put off) s = .next { s with err := .fault .range, fault := true })

/-! ## The SHA-256 engine and the key derivation -/

/-- R172: SHA.INIT opens a message with the initial chaining value and an empty block; DG and DK and their flags stay. The
field `wrapped` is the model's own (log 6). -/
def Obligations.ShaInitOpensAMessage : Prop :=
  EncodedAs .shaInit 0x30000000 ∧ ∀ s : State,
    exec .shaInit s = .next { s with
      sha := { h := some shaH0, mb := [], mbn := 0, mlen := 0, wrapped := false }, shav := true, err := .ok }

/-- R164: the engine's one-byte step puts the byte at MBN, counts MLEN modulo 2^64, and compresses the block when it is
full; several bytes are absorbed in their order. -/
def Obligations.AbsorbFillsAndCompresses : Prop :=
  ∀ (e : ShaEngine) (b : Byte), e.Ready →
    ∃ e', e.absorb b = .ok e' ∧ e.absorbAll [] = .ok e ∧ (∀ bs, e.absorbAll (b :: bs) = e'.absorbAll bs) ∧
      e'.mlen = e.mlen + 1 ∧ e.mb.WrittenTo e'.mb e.mbn.val [b] ∧
      (e.mbn.val < 63 → e'.mbn.val = e.mbn.val + 1 ∧ e'.h = e.h) ∧
      (e.mbn.val = 63 → e'.mbn = 0 ∧
        ∃ c block, e.h = some c ∧ block.length = 64 ∧ e'.mb.Holds 0 block ∧ e'.h = some (shaCompress c block))

/-- With a message open, SHA.UPDB, SHA.UPDR, SHA.UPDK1, SHA.UPDK2 and SHA.UPDDG complete whenever their bytes are there: the
engine absorbs exactly those bytes, in order, and nothing else changes (42_sha256_kdf.md R173 to R177). -/
def Obligations.ShaUpdatesAbsorbTheirBytes : Prop :=
  ∀ s : State, s.Inv → s.shav = true →
    (∀ imm, ∃ e, s.sha.absorbAll [imm] = .ok e ∧ exec (.shaUpdb imm) s = .next { s with sha := e, err := .ok }) ∧
      (∀ off len bs, s.HasRange off len bs →
        ∃ e, s.sha.absorbAll bs = .ok e ∧ exec (.shaUpdr off len) s = .next { s with sha := e, err := .ok }) ∧
      (∀ k : List Byte, s.k1len.toNat ≤ s.cfg.keyMax → k.length = s.k1len.toNat → s.k1b.Holds 0 k →
        ∃ e, s.sha.absorbAll k = .ok e ∧ exec .shaUpdk1 s = .next { s with sha := e, err := .ok }) ∧
      (∀ k : List Byte, s.k2len.toNat ≤ s.cfg.keyMax → k.length = s.k2len.toNat → s.k2b.Holds 0 k →
        ∃ e, s.sha.absorbAll k = .ok e ∧ exec .shaUpdk2 s = .next { s with sha := e, err := .ok }) ∧
      (∀ d, s.dgv = true → s.dg = some d →
        ∃ e, s.sha.absorbAll d.toList = .ok e ∧ exec .shaUpddg s = .next { s with sha := e, err := .ok })

/-- With a message open, SHA.UPDR, SHA.UPDK1 and SHA.UPDK2 fault as their operands' checks say, a bound or a length before an
undefined byte (42_sha256_kdf.md R174, R175, R176). -/
def Obligations.ShaUpdatesCheckTheirOperands : Prop :=
  ∀ s : State, s.shav = true →
    (∀ off len, s.cfg.fbSize < s.flen.toNat ∨ s.flen.toNat < off + len →
      exec (.shaUpdr off len) s = .next (s.raise .range)) ∧
      (∀ off len, s.flen.toNat ≤ s.cfg.fbSize → off + len ≤ s.flen.toNat → s.fb.Lacks off len →
        exec (.shaUpdr off len) s = .next (s.raise .undef)) ∧
      (s.cfg.keyMax < s.k1len.toNat → exec .shaUpdk1 s = .next (s.raise .keyLen)) ∧
      (s.k1len.toNat ≤ s.cfg.keyMax → s.k1b.Lacks 0 s.k1len.toNat → exec .shaUpdk1 s = .next (s.raise .undef)) ∧
      (s.cfg.keyMax < s.k2len.toNat → exec .shaUpdk2 s = .next (s.raise .keyLen)) ∧
      (s.k2len.toNat ≤ s.cfg.keyMax → s.k2b.Lacks 0 s.k2len.toNat → exec .shaUpdk2 s = .next (s.raise .undef))

/-- With a message open SHA.FIN completes: it leaves a digest with DGV 1 and SHAV 0 and changes nothing else but the engine.
Which digest a message of 2^61 bytes or more leaves is free (42_sha256_kdf.md R163, R178; log 6). -/
def Obligations.ShaFinClosesTheMessage : Prop :=
  ∀ s : State, s.Inv → s.shav = true →
    ∃ e d n, exec .shaFin s =
      .next { s with sha := e, dg := some d, dgv := true, shav := false, err := .ok, freeCount := n }

/-- The streaming engine computes SHA-256: when it has absorbed the bytes of a message below 2^61 bytes since SHA.INIT, in
whatever pieces, SHA.FIN leaves sha256 of the message in DG (42_sha256_kdf.md section 2). -/
def Obligations.StreamingEngineComputesSha256 : Prop :=
  ∀ (s : State) (msg : List Byte), s.shav = true → s.sha.HasAbsorbed msg → msg.length < 2 ^ 61 →
    ∃ e, exec .shaFin s =
      .next { s with sha := e, dg := some (sha256 msg), dgv := true, shav := false, err := .ok }

/-- R179: KDF.RUN with both secrets loaded leaves derive_key(key1, key2, ITER) in DG and DK, the four flags as the rule says,
the engine as the last hash leaves it and nothing else changed; it checks both lengths before it reads a byte, and faults before it writes. -/
def Obligations.KdfRunDerivesTheKey : Prop :=
  EncodedAs .kdfRun 0x38000000 ∧ ∀ s : State,
    (∀ k1 k2, s.HasKeys k1 k2 →
      ∃ e, e.HasFinished (lastKdfMessage k1 k2 s.iter.toNat) ∧ exec .kdfRun s = .next { s with
        sha := e, shav := false, dg := some (deriveKey k1 k2 s.iter.toNat), dgv := true,
        dk := some (deriveKey k1 k2 s.iter.toNat), dkv := true, err := .ok }) ∧
      (s.cfg.keyMax < s.k1len.toNat ∨ s.cfg.keyMax < s.k2len.toNat → exec .kdfRun s = .next (s.raise .keyLen)) ∧
      (s.k1len.toNat ≤ s.cfg.keyMax → s.k2len.toNat ≤ s.cfg.keyMax →
        s.k1b.Lacks 0 s.k1len.toNat ∨ s.k2b.Lacks 0 s.k2len.toNat → exec .kdfRun s = .next (s.raise .undef))

/-- KDF.RUN equals KDF.STEP0, then ITER times KDF.STEPN, then KDF.LATCH, on the whole state
(30_encoding.md R107; 42_sha256_kdf.md section 4). -/
def Obligations.KdfRunEqualsItsExpansion : Prop :=
  ∀ (s : State) (k1 k2 : List Byte), s.HasKeys k1 k2 →
    exec .kdfRun s =
      execAll (Pseudo.kdfStep0.expand ++ (List.replicate s.iter.toNat Pseudo.kdfStepN.expand).flatten ++ [.kdfLatch]) s

/-- R180: KDF.LATCH copies the digest into DK; without a digest it is F_NODG. -/
def Obligations.KdfLatchCopiesTheDigest : Prop :=
  EncodedAs .kdfLatch 0x39000000 ∧ ∀ s : State,
    (∀ d, s.dgv = true → s.dg = some d → exec .kdfLatch s = .next { s with dk := some d, dkv := true, err := .ok }) ∧
      (s.dgv = false → exec .kdfLatch s = .next { s with err := .fault .noDg, fault := true })

/-- The word views show four digest bytes big-endian, DGW0 first, and the same of DK (10_state.md R39, R40). -/
def Obligations.WordViewsAreBigEndian : Prop :=
  ∀ (s : State) (d : Vector Byte 32) (k : Fin 8),
    (s.dgv = true → s.dg = some d →
      ∃ w, s.readReg (.dgw k) = some w ∧ be32 w = (d.toList.drop (4 * k.val)).take 4) ∧
      (s.dkv = true → s.dk = some d →
        ∃ w, s.readReg (.dkw k) = some w ∧ be32 w = (d.toList.drop (4 * k.val)).take 4)

/-! ## The RC4 core -/

/-- R196: RC4.KSA schedules DK from keystream byte 0; without a derived key it is F_NOKEY. -/
def Obligations.Rc4KsaSchedulesTheKey : Prop :=
  EncodedAs .rc4Ksa 0x40000000 ∧ ∀ s : State,
    (∀ k, s.dkv = true → s.dk = some k →
      exec .rc4Ksa s = .next { s with s := some (rc4Ksa k.toList), ri := 0, rj := 0, rc4v := true, err := .ok }) ∧
      (s.dkv = false → exec .rc4Ksa s = .next { s with err := .fault .noKey, fault := true })

/-- RC4.XORR over a range that is in bounds and defined xors its bytes, in order, with the keystream as it continues, leaves
the cipher state that many bytes on, and changes nothing else; its faults leave everything (43_rc4.md R197). -/
def Obligations.Rc4XorrContinuesTheKeystream : Prop :=
  ∀ (s : State) (off len : Nat) (sb : Vector Byte 256), s.rc4v = true → s.s = some sb →
    let c : Rc4 := { s := sb, i := s.ri, j := s.rj }
    (∀ bs, s.HasRange off len bs →
      ∃ m, exec (.rc4Xorr off len) s = .next { s with
          fb := m, s := some (c.advance len).s, ri := (c.advance len).i, rj := (c.advance len).j, err := .ok } ∧
        (∀ k b, bs[k]? = some b → m.read (off + k) = some (b ^^^ c.keystreamByte k)) ∧
        (∀ a, a < off ∨ off + len ≤ a → m.read a = s.fb.read a)) ∧
      (s.cfg.fbSize < s.flen.toNat ∨ s.flen.toNat < off + len →
        exec (.rc4Xorr off len) s = .next (s.raise .range)) ∧
      (s.flen.toNat ≤ s.cfg.fbSize → off + len ≤ s.flen.toNat → s.fb.Lacks off len →
        exec (.rc4Xorr off len) s = .next (s.raise .undef))

/-- R198: RC4.GEN puts the next keystream byte into KSB and moves the cipher state on by one byte, exactly as one byte of
RC4.XORR does; without a keyed state it is F_NOKS. -/
def Obligations.Rc4GenGivesTheNextByte : Prop :=
  EncodedAs .rc4Gen 0x42000000 ∧ ∀ (s : State) (sb : Vector Byte 256),
    (s.rc4v = true → s.s = some sb →
      let c : Rc4 := { s := sb, i := s.ri, j := s.rj }
      exec .rc4Gen s = .next { s with
        ksb := c.next.1, s := some c.next.2.s, ri := c.next.2.i, rj := c.next.2.j, err := .ok } ∧
      ∀ off b, s.HasRange off 1 [b] →
        ∃ m, exec (.rc4Xorr off 1) s = .next { s with
            fb := m, s := some c.next.2.s, ri := c.next.2.i, rj := c.next.2.j, err := .ok } ∧
          s.fb.WrittenTo m off [b ^^^ c.next.1]) ∧
      (s.rc4v = false → exec .rc4Gen s = .next { s with err := .fault .noKs, fault := true })

/-- Encrypting twice under one key gives the bytes back (43_rc4.md section 1, consequence (a)). -/
def Obligations.Rc4CryptIsAnInvolution : Prop :=
  ∀ key data : List Byte, rc4Crypt key (rc4Crypt key data) = data

/-- On the machine: RC4.KSA, RC4.XORR, RC4.KSA, RC4.XORR over one range completes and gives every byte of FB back
(43_rc4.md R197). -/
def Obligations.RescheduledXorrRestoresTheRange : Prop :=
  ∀ (s : State) (off len : Nat) (k : Vector Byte 32) (bs : List Byte), s.dkv = true → s.dk = some k → s.HasRange off len bs →
    ∃ t, execAll [.rc4Ksa, .rc4Xorr off len, .rc4Ksa, .rc4Xorr off len] s = .next t ∧
      (∀ a, t.fb.read a = s.fb.read a) ∧
      t = { s with fb := t.fb, s := t.s, ri := t.ri, rj := t.rj, rc4v := true, err := .ok }

/-! ## The frame codec -/

/-- R212: FRM.VALIDATE on the frame of FLEN bytes in FB: the three rejects in order, the computed CRC kept when the first two
tests pass, VALID, and the two faults; nothing else changes. -/
def Obligations.FrmValidateChecksTheFrame : Prop :=
  EncodedAs .frmValidate 0x50000000 ∧ ∀ s : State,
    (∀ f, s.HasFrame f → f.length < 3 →
      exec .frmValidate s = .next { s with valid := false, err := .reject .tooShort }) ∧
      (∀ body hi lo mark, s.HasFrame (body ++ [hi, lo, mark]) →
        (mark ≠ 0x55 → exec .frmValidate s = .next { s with valid := false, err := .reject .endMarker }) ∧
          (mark = 0x55 → crc16Of body ≠ ofBe16 hi lo →
            exec .frmValidate s = .next { s with crc16 := crc16Of body, valid := false, err := .reject .crc16 }) ∧
          (mark = 0x55 → crc16Of body = ofBe16 hi lo →
            exec .frmValidate s = .next { s with crc16 := crc16Of body, valid := true, err := .ok })) ∧
      (s.cfg.fbSize < s.flen.toNat → exec .frmValidate s = .next (s.raise .range)) ∧
      (s.flen.toNat ≤ s.cfg.fbSize → s.fb.Lacks 0 s.flen.toNat → exec .frmValidate s = .next (s.raise .undef))

/-- FRM.DECODE on a short frame rejects it; on a clear frame it needs no keys, reports the sum of the clear segment less its
last byte against that byte, and changes neither FB nor the cipher state (44_frame_rx.md R216). -/
def Obligations.FrmDecodeReportsAClearFrame : Prop :=
  ∀ s : State,
    (∀ f, s.HasFrame f → f.length < 21 →
      exec .frmDecode s = .next { s with crc8ok := false, rxenc := false, err := .reject .decodeShort }) ∧
      (∀ f, s.HasFrame f → 21 ≤ f.length → f.length < 26 →
        exec .frmDecode s = .next { s with crc8ok := false, rxenc := false, err := .reject .segmentShort }) ∧
      (∀ pre body c foot flags, s.HasFrame (pre ++ body ++ [c] ++ foot) → pre.length = 21 → 1 ≤ body.length →
        foot.length = 3 → pre[3]? = some flags → flags &&& 0x01 = 0x00 →
        exec .frmDecode s = .next { s with
          sum8 := sum8Of body, crc8ok := sum8Of body == c, rxenc := false, err := .ok })

/-- FRM.DECODE on an encrypted frame with both secrets loaded decrypts the whole segment in place under the key derived
afresh, from keystream byte 0, reports the sum of the clear segment, and leaves header, plain section, footer, VALID, CRC16,
FLEN and KSB as they were; the engine, the digest, the key and the cipher state are as the three inner operations leave them
(44_frame_rx.md R214, R216; 43_rc4.md R199). -/
def Obligations.FrmDecodeDecryptsInPlace : Prop :=
  ∀ (s : State) (pre seg foot : List Byte) (flags : Byte) (k1 k2 body : List Byte) (c : Byte),
    s.HasFrame (pre ++ seg ++ foot) → pre.length = 21 → 2 ≤ seg.length → foot.length = 3 → pre[3]? = some flags →
    flags &&& 0x01 = 0x01 → s.HasKeys k1 k2 → rc4Crypt (deriveKey k1 k2 s.iter.toNat).toList seg = body ++ [c] →
    ∃ t, exec .frmDecode s = .next t ∧
      t = { s with
        fb := t.fb, sum8 := sum8Of body, crc8ok := sum8Of body == c, rxenc := true, err := .ok,
        sha := t.sha, shav := t.shav, dg := t.dg, dgv := t.dgv, dk := t.dk, dkv := t.dkv,
        s := t.s, ri := t.ri, rj := t.rj, rc4v := t.rc4v } ∧
      s.fb.WrittenTo t.fb 21 (body ++ [c]) ∧ t.LeftByCipherStep k1 k2 s.iter.toNat seg.length

/-- The faults of FRM.DECODE and FRM.RX: FLEN above FB_SIZE, an undefined byte of the frame, and, only when the decode step
will decrypt, a secret's length and then an undefined byte of a secret (44_frame_rx.md R216, R220; 60_exceptions.md R298). -/
def Obligations.FrmDecodeAndRxFaults : Prop :=
  ∀ s : State,
    (s.cfg.fbSize < s.flen.toNat →
      exec .frmDecode s = .next (s.raise .range) ∧ exec .frmRx s = .next (s.raise .range)) ∧
      (s.flen.toNat ≤ s.cfg.fbSize → s.fb.Lacks 0 s.flen.toNat →
        exec .frmDecode s = .next (s.raise .undef) ∧ exec .frmRx s = .next (s.raise .undef)) ∧
      (∀ f, s.HasFrame f → 26 ≤ f.length → isEncrypted f = true →
        s.cfg.keyMax < s.k1len.toNat ∨ s.cfg.keyMax < s.k2len.toNat →
        exec .frmDecode s = .next (s.raise .keyLen) ∧
          (validateFrame f = .ok () → exec .frmRx s = .next (s.raise .keyLen))) ∧
      (∀ f, s.HasFrame f → 26 ≤ f.length → isEncrypted f = true → s.k1len.toNat ≤ s.cfg.keyMax →
        s.k2len.toNat ≤ s.cfg.keyMax → s.k1b.Lacks 0 s.k1len.toNat ∨ s.k2b.Lacks 0 s.k2len.toNat →
        exec .frmDecode s = .next (s.raise .undef) ∧
          (validateFrame f = .ok () → exec .frmRx s = .next (s.raise .undef)))

/-- FRM.RX is validate_frame, and decode only of a valid frame, with a crc8 mismatch a reject: the table of outcomes, what FB
holds after each, and what stays; after an encrypted segment the engine, the digest, the key and the cipher state are as the
three inner operations leave them, and otherwise untouched. The secrets are needed only when a valid frame of at least 26 bytes has flags bit 0 set
(44_frame_rx.md R210, R211, R214, R220). -/
def Obligations.FrmRxValidatesThenDecodes : Prop :=
  ∀ (s : State) (f k1 k2 : List Byte), s.HasFrame f →
    (validateFrame f = .ok () → 26 ≤ f.length → isEncrypted f = true → s.HasKeys k1 k2) →
    (∀ c, validateFrame f = .error c →
      exec .frmRx s = .next { s with
        valid := false, crc8ok := false, rxenc := false, err := .reject c,
        crc16 := if c = .crc16 then crc16Of (coveredBytes f) else s.crc16 }) ∧
      (validateFrame f = .ok () → ∀ c, decodeFrame f k1 k2 s.iter.toNat = .error c →
        exec .frmRx s = .next { s with
          valid := true, crc8ok := false, rxenc := false, err := .reject c, crc16 := crc16Of (coveredBytes f) }) ∧
      (validateFrame f = .ok () → ∀ f' good, decodeFrame f k1 k2 s.iter.toNat = .ok (f', good) →
        ∃ t, exec .frmRx s = .next t ∧
          t = { s with
            valid := true, crc8ok := good, rxenc := isEncrypted f, err := if good then .ok else .reject .crc8,
            crc16 := crc16Of (coveredBytes f), sum8 := segmentSum (segmentOf f'), fb := t.fb,
            sha := t.sha, shav := t.shav, dg := t.dg, dgv := t.dgv, dk := t.dk, dkv := t.dkv,
            s := t.s, ri := t.ri, rj := t.rj, rc4v := t.rc4v } ∧
          s.fb.WrittenTo t.fb 0 f' ∧
          (isEncrypted f = false → s.SameCipher t) ∧
          (isEncrypted f = true → t.LeftByCipherStep k1 k2 s.iter.toNat (f.length - 24)))

/-- FRM.ENCODE with its arguments loaded builds exactly encode_reply in FB[0..28+x), leaves every byte from there on, sets
FLEN, SUM8 and CRC16, and changes the engine, the digest, the key and the cipher state only when TXCTL.ENC is 1, as the three
inner operations do (45_frame_tx.md R241, R242, R245). -/
def Obligations.FrmEncodeBuildsTheReply : Prop :=
  ∀ (s : State) (dev extra k1 k2 : List Byte), s.txxlen.toNat ≤ 253 → extra.length = s.txxlen.toNat → s.txx.Holds 0 extra →
    dev.length = 10 → s.txdev.Holds 0 dev → (s.txctl = 1 → s.HasKeys k1 k2) →
    let reply := encodeReply (s.replyArgs dev extra) k1 k2 s.iter.toNat
    ∃ t, exec .frmEncode s = .next t ∧
      s.fb.WrittenTo t.fb 0 reply ∧ reply.length = 28 + extra.length ∧ t.flen.toNat = 28 + extra.length ∧
      t.sum8 = sum8Of (replyBody (s.replyArgs dev extra)) ∧ t.crc16 = crc16Of (reply.take (25 + extra.length)) ∧
      t = { s with
        fb := t.fb, flen := t.flen, sum8 := t.sum8, crc16 := t.crc16, err := .ok,
        sha := t.sha, shav := t.shav, dg := t.dg, dgv := t.dgv, dk := t.dk, dkv := t.dkv,
        s := t.s, ri := t.ri, rj := t.rj, rc4v := t.rc4v } ∧
      (s.txctl = 0 → s.SameCipher t) ∧
      (s.txctl = 1 → t.LeftByCipherStep k1 k2 s.iter.toNat (extra.length + 4))

/-- The faults of FRM.ENCODE in their order: the payload, then, only when encrypting, a secret's length and an undefined byte
of a secret, then an undefined byte of TXDEV or TXX (45_frame_tx.md R245; 60_exceptions.md R298). -/
def Obligations.FrmEncodeFaultsInOrder : Prop :=
  ∀ s : State,
    (253 < s.txxlen.toNat → exec .frmEncode s = .next (s.raise .payload)) ∧
      (s.txxlen.toNat ≤ 253 → s.txctl = 1 → s.cfg.keyMax < s.k1len.toNat ∨ s.cfg.keyMax < s.k2len.toNat →
        exec .frmEncode s = .next (s.raise .keyLen)) ∧
      (s.txxlen.toNat ≤ 253 → s.txctl = 1 → s.k1len.toNat ≤ s.cfg.keyMax → s.k2len.toNat ≤ s.cfg.keyMax →
        s.k1b.Lacks 0 s.k1len.toNat ∨ s.k2b.Lacks 0 s.k2len.toNat → exec .frmEncode s = .next (s.raise .undef)) ∧
      (s.txxlen.toNat ≤ 253 → (s.txctl = 1 → ∃ k1 k2, s.HasKeys k1 k2) →
        s.txdev.Lacks 0 10 ∨ s.txx.Lacks 0 s.txxlen.toNat → exec .frmEncode s = .next (s.raise .undef))

/-- Every reply the encoder builds is a frame its own receiver accepts: validate_frame is true of it, decode finds the crc8
correct, and the decoded fields are the encoder's arguments, with the ack bit set, the fixed bytes fixed, timestamp and seq
zero (44_frame_rx.md section 4; 45_frame_tx.md section 1). -/
def Obligations.EncodedReplyIsAccepted : Prop :=
  ∀ (r : ReplyArgs) (k1 k2 : List Byte) (n : Nat), r.deviceId.length = 10 → r.extra.length ≤ 253 →
    validateFrame (encodeReply r k1 k2 n) = .ok () ∧
      ∃ f, decodeFrame (encodeReply r k1 k2 n) k1 k2 n = .ok (f, true) ∧
        (parse f).start1 = 0xAA ∧ (parse f).start2 = 0x55 ∧ (parse f).version = r.version ∧
        (parse f).flags = (if r.shouldEncrypt then 1 else 0) ∧ (parse f).deviceId = r.deviceId ∧
        (parse f).commandId = r.commandId ||| 0x8000 ∧ (parse f).keyId = r.keyId ∧ (parse f).timestamp = [0, 0, 0] ∧
        (parse f).seq = 0 ∧ (parse f).dataLen.toNat = 2 + r.extra.length ∧
        (parse f).data = [r.status, r.request] ++ r.extra ∧ (parse f).endMarker = 0x55

/-- On the machine: FRM.ENCODE and then FRM.RX, with nothing between, is accepted, with RXENC as TXCTL.ENC
(44_frame_rx.md section 4; 95_test_vectors.md P4). -/
def Obligations.ReplyIsReceivedBack : Prop :=
  ∀ (s : State) (dev extra k1 k2 : List Byte), s.txxlen.toNat ≤ 253 → extra.length = s.txxlen.toNat → s.txx.Holds 0 extra →
    dev.length = 10 → s.txdev.Holds 0 dev → (s.txctl = 1 → s.HasKeys k1 k2) →
    ∃ t, execAll [.frmEncode, .frmRx] s = .next t ∧ t.err = .ok ∧ t.valid = true ∧ t.crc8ok = true ∧
      t.rxenc = (s.txctl == 1) ∧ t.flen.toNat = 28 + extra.length ∧ t.fb.Holds 4 dev ∧
      t.fb.Holds 21 (replySegment (s.replyArgs dev extra))

/-- decode is not idempotent: on an encrypted frame a second decode gives the received frame back, and a clear frame is left
as it is (44_frame_rx.md section 3, consequences). -/
def Obligations.DecodingTwiceUndoesTheDecoding : Prop :=
  ∀ (f k1 k2 : List Byte) (n : Nat) (f' : List Byte) (good : Bool), decodeFrame f k1 k2 n = .ok (f', good) →
    (isEncrypted f = false → f' = f) ∧
      (isEncrypted f = true → ∃ good', decodeFrame f' k1 k2 n = .ok (f, good'))

/-! ## The host window -/

/-- R27: STATUS as a number: each flag at its bit, ERR from bit 8 on; and the number that ERR holds for each outcome, as the
table of codes gives it (60_exceptions.md R291). -/
def Obligations.StatusIsTheSumOfItsFields : Prop :=
  Err.ok.code = 0x00 ∧
    RejectCode.tooShort.code = 0x01 ∧ RejectCode.endMarker.code = 0x02 ∧ RejectCode.crc16.code = 0x03 ∧
    RejectCode.decodeShort.code = 0x04 ∧ RejectCode.segmentShort.code = 0x05 ∧ RejectCode.crc8.code = 0x06 ∧
    FaultCode.opcode.code = 0x10 ∧ FaultCode.range.code = 0x11 ∧ FaultCode.undef.code = 0x12 ∧
    FaultCode.noKey.code = 0x13 ∧ FaultCode.noKs.code = 0x14 ∧ FaultCode.noSha.code = 0x15 ∧
    FaultCode.noDg.code = 0x16 ∧ FaultCode.payload.code = 0x17 ∧ FaultCode.keyLen.code = 0x18 ∧
    (∀ c, (Err.reject c).code = c.code) ∧ (∀ c, (Err.fault c).code = c.code) ∧
    ∀ s : State,
      s.status.toNat = s.valid.toNat + 2 * s.crc8ok.toNat + 4 * s.rxenc.toNat + 8 * s.shav.toNat + 16 * s.dgv.toNat +
        32 * s.dkv.toNat + 64 * s.rc4v.toNat + 128 * s.fault.toNat + 256 * s.err.code.toNat

/-- R46: a host write of a read-write register stores the low bits of its width and touches no other register, buffer or
engine; of a read-only register it is ignored; a read gives the stored value with 0 above the width, and 0 for CMD. A read of
DGWk or DKWk whose flag is 0 answers some word and changes nothing of the block; which word is free (10_state.md R39, R40;
93_implementation_defined.md U2; log 5). The fields `host` and `reply` are the model's form (log 2, log 3). -/
def Obligations.RegisterAccessKeepsToItsWidth : Prop :=
  ∀ (s : State) (r : Reg) (es : List HostEvent),
    (∀ v, s.host = .write32 r.address v :: es → r.access = .readOnly →
      step s = .next { s with host := es, reply := .done }) ∧
      (∀ v, s.host = .write32 r.address v :: es → r.access = .readWrite →
        ∃ t, step s = .next t ∧ t.host = es ∧ t.reply = .done ∧
          t.readReg r = some (BitVec.ofNat 32 (v.toNat % 2 ^ r.width)) ∧
          (∀ r', r' ≠ r → t.readReg r' = s.readReg r') ∧ (∀ b, t.buffer b = s.buffer b) ∧ t.sha = s.sha ∧ t.dg = s.dg ∧
          t.dk = s.dk ∧ t.s = s.s ∧ t.ri = s.ri ∧ t.rj = s.rj ∧ t.cfg = s.cfg ∧ t.freeCount = s.freeCount) ∧
      (∀ v, s.host = .read32 r.address :: es → s.readReg r = some v →
        step s = .next { s with host := es, reply := .data32 v } ∧ v.toNat < 2 ^ r.width) ∧
      (s.host = .read32 r.address :: es → s.readReg r = none →
        ∃ t v, step s = .next t ∧ t.reply = .data32 v ∧ s.SameBlock t) ∧
      (∀ k, (s.dgv = false → s.readReg (.dgw k) = none) ∧ (s.dkv = false → s.readReg (.dkw k) = none)) ∧
      s.readReg .cmd = some 0

/-- An 8-bit write inside a buffer's window makes that byte defined with the value written and changes no other byte of any
buffer; an 8-bit read gives the byte, or some byte where there is none (a free value, log 4), and changes nothing of the
block (20_memory.md R63). -/
def Obligations.BufferAccessIsByteWise : Prop :=
  ∀ (s : State) (b : Buf) (i : Nat) (es : List HostEvent), i < b.size s.cfg →
    (∀ v, s.host = .write8 (b.base + i) v :: es →
      ∃ m, step s = .next { s.setBuffer b m with host := es, reply := .done } ∧ (s.buffer b).WrittenTo m i [v]) ∧
      (∀ v, s.host = .read8 (b.base + i) :: es → (s.buffer b).read i = some v →
        step s = .next { s with host := es, reply := .data8 v }) ∧
      (s.host = .read8 (b.base + i) :: es → (s.buffer b).read i = none →
        ∃ t v, step s = .next t ∧ t.reply = .data8 v ∧ s.SameBlock t)

/-- R64: an access at an unmapped address, of the wrong width, or beyond a buffer's size changes no state of the block, returns
no data and is a bus error, which the model records in its field `reply` (log 3). -/
def Obligations.RefusedAccessIsABusError : Prop :=
  ∀ (s : State) (es : List HostEvent) (e : HostEvent), s.host = e :: es →
    ((∃ a, e = .read16 a) ∨ (∃ a v, e = .write16 a v) ∨
      (∃ a, (e = .read32 a ∨ ∃ v, e = .write32 a v) ∧ ∀ r : Reg, r.address ≠ a) ∨
      (∃ a, (e = .read8 a ∨ ∃ v, e = .write8 a v) ∧ ∀ b : Buf, ¬ (b.base ≤ a ∧ a < b.base + b.size s.cfg))) →
    step s = .next { s with host := es, reply := .busError }

/-- No host read has a side effect on the block, whatever its width and address, and a read that is refused or shows a value
that is there gives the same answer when it is repeated (20_memory.md R65). The premise on `freeCount` leaves out the reads of
a buffer byte without a value and of a word view whose flag is 0: there two reads may answer differently, which is the model's
choice for those unspecified values (log 4, log 5). -/
def Obligations.HostReadsHaveNoSideEffect : Prop :=
  ∀ (s t : State) (e : HostEvent) (es : List HostEvent), s.host = e :: es →
    (∃ a, e = .read8 a ∨ e = .read16 a ∨ e = .read32 a) → step s = .next t →
    s.SameBlock t ∧ t.host = es ∧
      (t.freeCount = s.freeCount → ∃ t', step { t with host := e :: es } = .next t' ∧ t'.reply = t.reply)
end

