-- ==== Sys2Proof/Laws/Checksum.lean ====
section
/-! SUPPORT. The checksums of a concatenation, and how many bytes a number takes. -/

namespace Sys2Proof.Machine

/-- The CRC of a concatenation continues the CRC of its first part. -/
theorem crc16From_append (c : Half) (xs ys : List Byte) : crc16From c (xs ++ ys) = crc16From (crc16From c xs) ys := by
  induction xs generalizing c with
  | nil => rfl
  | cons x xs ih => exact ih _

/-- The sum of a concatenation continues the sum of its first part. -/
theorem sum8From_append (s : Byte) (xs ys : List Byte) : sum8From s (xs ++ ys) = sum8From (sum8From s xs) ys := by
  induction xs generalizing s with
  | nil => rfl
  | cons x xs ih => exact ih _

@[simp] theorem be16_length (v : Half) : (be16 v).length = 2 := rfl

@[simp] theorem be32_length (v : Word) : (be32 v).length = 4 := rfl

@[simp] theorem be64_length (v : DWord) : (be64 v).length = 8 := rfl

end Sys2Proof.Machine
end

