-- ==== Sys2Proof/Laws/Decode.lean ====
section
/-! SUPPORT. The three fields of a command word, taken apart and put together, and what each form's decoder answers. -/

namespace Sys2Proof

/-- The bits of a command word: B below A below OP (30_encoding.md R100). -/
theorem getLsbD_commandWord (op : Byte) (a b : BitVec 12) (i : Nat) :
    (commandWord op a b).getLsbD i =
      if i < 12 then b.getLsbD i else if i - 12 < 12 then a.getLsbD (i - 12) else op.getLsbD (i - 12 - 12) := by
  have h : (commandWord op a b).getLsbD i = (op ++ a ++ b : BitVec (8 + 12 + 12)).getLsbD i := rfl
  rw [h, BitVec.getLsbD_append, BitVec.getLsbD_append]

@[simp] theorem opField_commandWord (op : Byte) (a b : BitVec 12) : opField (commandWord op a b) = op := by
  apply BitVec.eq_of_getLsbD_eq
  intro i hi
  rw [opField, BitVec.getLsbD_extractLsb', getLsbD_commandWord, if_neg (by omega), if_neg (by omega)]
  simp [hi, show 24 + i - 12 - 12 = i by omega]

@[simp] theorem aField_commandWord (op : Byte) (a b : BitVec 12) : aField (commandWord op a b) = a := by
  apply BitVec.eq_of_getLsbD_eq
  intro i hi
  rw [aField, BitVec.getLsbD_extractLsb', getLsbD_commandWord, if_neg (by omega), if_pos (by omega)]
  simp [hi]

@[simp] theorem bField_commandWord (op : Byte) (a b : BitVec 12) : bField (commandWord op a b) = b := by
  apply BitVec.eq_of_getLsbD_eq
  intro i hi
  rw [bField, BitVec.getLsbD_extractLsb', getLsbD_commandWord, if_pos (by omega)]
  simp [hi]

/-- A word is its three fields. -/
theorem commandWord_fields (w : Word) : commandWord (opField w) (aField w) (bField w) = w := by
  apply BitVec.eq_of_getLsbD_eq
  intro i hi
  simp only [getLsbD_commandWord, opField, aField, bField, BitVec.getLsbD_extractLsb']
  by_cases h1 : i < 12
  · simp [h1]
  · by_cases h2 : i - 12 < 12
    · simp [h1, h2, show 12 + (i - 12) = i by omega]
    · simp [h1, h2, show 24 + (i - 12 - 12) = i by omega, show i - 12 - 12 < 8 by omega]

/-- Form none decodes exactly the word with both operand fields 0. -/
theorem decodeNone_eq_ok {w : Word} {i j : Instr} :
    decodeNone w i = .ok j ↔ aField w = 0 ∧ bField w = 0 ∧ j = i := by
  rw [decodeNone]
  split <;> simp_all [eq_comm (a := i)]

/-- Form imm8 decodes exactly the words with A and the top of B zero. -/
theorem decodeImm8_eq_ok {w : Word} {mk : Byte → Instr} {j : Instr} :
    decodeImm8 w mk = .ok j ↔
      aField w = 0 ∧ (bField w).extractLsb' 8 4 = 0 ∧ j = mk ((bField w).extractLsb' 0 8) := by
  rw [decodeImm8]
  split <;> simp_all [eq_comm (b := j)]

/-- Form off decodes exactly the words with B zero. -/
theorem decodeOff_eq_ok {w : Word} {mk : Nat → Instr} {j : Instr} :
    decodeOff w mk = .ok j ↔ bField w = 0 ∧ j = mk (aField w).toNat := by
  rw [decodeOff]
  split <;> simp_all [eq_comm (b := j)]

end Sys2Proof
end

