-- ==== Sys2Proof/Laws/Memory.lean ====
section
/-! SUPPORT. The laws of the buffers: read after write, canonical form kept, and what a range read or write does. -/

namespace Sys2Proof.Machine

/-- Reading after a write: the byte written, and every other byte as before. -/
theorem Memory.read_write (m : Memory) (i a : Nat) (v : Byte) :
    (m.write i v).read a = if a = i then some v else m.read a := by
  induction m with
  | nil => simp [Memory.write, Memory.read, eq_comm]
  | cons c m ih =>
    obtain ⟨b, w⟩ := c
    by_cases h1 : i < b
    · by_cases h2 : a = i
      · simp [Memory.write, Memory.read, h1, h2]
      · simp [Memory.write, Memory.read, h1, h2, Ne.symm h2]
    · by_cases h3 : i = b
      · by_cases h2 : a = i
        · simp [Memory.write, Memory.read, h3, h2]
        · have : ¬ b = a := fun e => h2 (by omega)
          simp [Memory.write, Memory.read, h3, this, Ne.symm this]
      · by_cases h4 : b = a
        · subst h4
          simp [Memory.write, Memory.read, h1, h3, Ne.symm h3]
        · simp [Memory.write, Memory.read, h1, h3, h4, ih]

/-- The cell written or a cell that was there: what a buffer holds after a write. -/
theorem Memory.mem_write {m : Memory} {i : Nat} {v : Byte} {c : Host.Cell} (h : c ∈ m.write i v) :
    c = (i, v) ∨ c ∈ m := by
  induction m with
  | nil => simpa [Memory.write] using h
  | cons d m ih =>
    obtain ⟨b, w⟩ := d
    simp only [Memory.write] at h
    split at h
    · simpa using h
    · split at h
      · rcases List.mem_cons.1 h with h | h
        · exact .inl h
        · exact .inr (List.mem_cons_of_mem _ h)
      · rcases List.mem_cons.1 h with h | h
        · exact .inr (h ▸ List.mem_cons_self)
        · exact (ih h).imp id (List.mem_cons_of_mem _)

/-- A write keeps the canonical form. -/
theorem Memory.wf_write {m : Memory} (h : m.wf) (i : Nat) (v : Byte) : (m.write i v).wf := by
  induction m with
  | nil => simp [Memory.write]
  | cons d m ih =>
    obtain ⟨b, w⟩ := d
    obtain ⟨hb, hm⟩ := List.pairwise_cons.1 h
    simp only [Memory.write]
    split
    · rename_i hi
      refine List.pairwise_cons.2 ⟨fun c hc => ?_, h⟩
      rcases List.mem_cons.1 hc with rfl | hc
      · exact hi
      · exact Nat.lt_trans hi (hb c hc)
    · split
      · rename_i hi
        subst hi
        exact List.pairwise_cons.2 ⟨hb, hm⟩
      · refine List.pairwise_cons.2 ⟨fun c hc => ?_, ih hm⟩
        rcases Memory.mem_write hc with rfl | hc
        · show b < i
          omega
        · exact hb c hc

/-- A write inside the buffer leaves every cell inside it. -/
theorem Memory.within_write {m : Memory} {n i : Nat} (h : m.within n) (hi : i < n) (v : Byte) :
    (m.write i v).within n := fun _ hc =>
  (Memory.mem_write hc).elim (fun e => e ▸ hi) (h _)

/-- What a range write does: the bytes given from the index given, and every other byte as before. -/
theorem Memory.writeRange_writtenTo (m : Memory) (i : Nat) (bs : List Byte) : m.WrittenTo (m.writeRange i bs) i bs := by
  induction bs generalizing m i with
  | nil =>
    intro a
    simp only [Memory.writeRange, List.length_nil, Nat.add_zero]
    rw [if_neg (by omega)]
  | cons b bs ih =>
    intro a
    rw [Memory.writeRange, ih, Memory.read_write]
    simp only [List.length_cons]
    by_cases h1 : a = i
    · subst h1
      simp
    · by_cases h2 : i + 1 ≤ a ∧ a < i + 1 + bs.length
      · rw [if_pos h2, if_pos (by omega)]
        obtain ⟨k, rfl⟩ : ∃ k, a = i + 1 + k := ⟨a - (i + 1), by omega⟩
        rw [show i + 1 + k - (i + 1) = k by omega, show i + 1 + k - i = k + 1 by omega, List.getElem?_cons_succ]
      · rw [if_neg h2, if_neg h1, if_neg (by omega)]

/-- A range write keeps the canonical form. -/
theorem Memory.wf_writeRange {m : Memory} (h : m.wf) (i : Nat) (bs : List Byte) : (m.writeRange i bs).wf := by
  induction bs generalizing m i with
  | nil => exact h
  | cons b bs ih => exact ih (Memory.wf_write h i b) (i + 1)

/-- A range write inside the buffer leaves every cell inside it. -/
theorem Memory.within_writeRange {m : Memory} {n i : Nat} (h : m.within n) (bs : List Byte) (hi : i + bs.length ≤ n) :
    (m.writeRange i bs).within n := by
  induction bs generalizing m i with
  | nil => exact h
  | cons b bs ih =>
    simp only [List.length_cons] at hi
    exact ih (Memory.within_write h (by omega) b) (by omega)

/-- A range read answers bytes exactly when the buffer holds them. -/
theorem Memory.readRange_eq_some {m : Memory} {i n : Nat} {bs : List Byte} :
    m.readRange i n = some bs ↔ bs.length = n ∧ m.Holds i bs := by
  induction n generalizing i bs with
  | zero =>
    rw [Memory.readRange, Option.some.injEq]
    constructor
    · rintro rfl
      exact ⟨rfl, fun k hk => absurd hk (by simp)⟩
    · intro h
      exact (List.length_eq_zero_iff.1 h.1).symm
  | succ n ih =>
    rw [Memory.readRange]
    constructor
    · intro h
      split at h
      · rename_i b cs hb hcs
        obtain rfl := Option.some.inj h
        obtain ⟨hl, hh⟩ := ih.1 hcs
        refine ⟨by simp [hl], fun k hk => ?_⟩
        cases k with
        | zero => simpa using hb
        | succ k =>
          rw [List.getElem?_cons_succ, ← hh k (by simpa using hk)]
          congr 1
          omega
      · cases h
    · rintro ⟨hl, hh⟩
      cases bs with
      | nil => cases hl
      | cons b cs =>
        have hb : m.read i = some b := by simpa using hh 0 (by simp)
        have hcs : m.readRange (i + 1) n = some cs := ih.2 ⟨by simpa using hl, fun k hk => by
          have := hh (k + 1) (by simpa using hk)
          rw [List.getElem?_cons_succ] at this
          rw [← this]
          congr 1
          omega⟩
        rw [hb, hcs]

/-- A range read answers nothing exactly when some byte of the range holds no value. -/
theorem Memory.readRange_eq_none {m : Memory} {i n : Nat} : m.readRange i n = none ↔ m.Lacks i n := by
  induction n generalizing i with
  | zero => simp [Memory.readRange]
  | succ n ih =>
    have hstep : m.readRange i (n + 1) = none ↔ m.read i = none ∨ m.readRange (i + 1) n = none := by
      rw [Memory.readRange]
      cases m.read i <;> cases Memory.readRange m (i + 1) n <;> simp
    rw [hstep, ih]
    constructor
    · rintro (h | ⟨k, hk, h⟩)
      · exact ⟨0, by omega, h⟩
      · exact ⟨k + 1, by omega, by rw [← h]; congr 1; omega⟩
    · rintro ⟨k, hk, h⟩
      cases k with
      | zero => exact .inl h
      | succ k => exact .inr ⟨k, by omega, by rw [← h]; congr 1; omega⟩

/-- The check passes exactly on a value. -/
@[simp] theorem defined_eq_ok {α : Type} {o : Option α} {x : α} : defined o = .ok x ↔ o = some x := by
  cases o <;> simp [defined]

/-- The check fails only with F_UNDEF and only where there is no value. -/
@[simp] theorem defined_eq_error {α : Type} {o : Option α} {c : FaultCode} :
    defined o = .error c ↔ c = .undef ∧ o = none := by
  cases o <;> simp [defined, eq_comm]

/-- `MemRead` answers bytes exactly when the buffer holds them. -/
theorem Memory.memRead_eq_ok {m : Memory} {i n : Nat} {bs : List Byte} :
    m.memRead i n = .ok bs ↔ bs.length = n ∧ m.Holds i bs := by
  rw [Memory.memRead, defined_eq_ok, Memory.readRange_eq_some]

/-- `MemRead` fails only with F_UNDEF, exactly when some byte of the range holds no value. -/
theorem Memory.memRead_eq_error {m : Memory} {i n : Nat} {c : FaultCode} :
    m.memRead i n = .error c ↔ c = .undef ∧ m.Lacks i n := by
  rw [Memory.memRead, defined_eq_error, Memory.readRange_eq_none]

end Sys2Proof.Machine
end

