-- ==== Sys2Proof/Laws/State.lean ====
section
/-! SUPPORT. One lemma per field of State for each named update, so that no proof unfolds a record update. -/

namespace Sys2Proof.Machine

@[simp] theorem State.succeed_cfg (t : State) : t.succeed.cfg = t.cfg := rfl
@[simp] theorem State.succeed_host (t : State) : t.succeed.host = t.host := rfl
@[simp] theorem State.succeed_reply (t : State) : t.succeed.reply = t.reply := rfl
@[simp] theorem State.succeed_freeCount (t : State) : t.succeed.freeCount = t.freeCount := rfl
@[simp] theorem State.succeed_valid (t : State) : t.succeed.valid = t.valid := rfl
@[simp] theorem State.succeed_crc8ok (t : State) : t.succeed.crc8ok = t.crc8ok := rfl
@[simp] theorem State.succeed_rxenc (t : State) : t.succeed.rxenc = t.rxenc := rfl
@[simp] theorem State.succeed_shav (t : State) : t.succeed.shav = t.shav := rfl
@[simp] theorem State.succeed_dgv (t : State) : t.succeed.dgv = t.dgv := rfl
@[simp] theorem State.succeed_dkv (t : State) : t.succeed.dkv = t.dkv := rfl
@[simp] theorem State.succeed_rc4v (t : State) : t.succeed.rc4v = t.rc4v := rfl
@[simp] theorem State.succeed_fault (t : State) : t.succeed.fault = t.fault := rfl
@[simp] theorem State.succeed_err (t : State) : t.succeed.err = .ok := rfl
@[simp] theorem State.succeed_flen (t : State) : t.succeed.flen = t.flen := rfl
@[simp] theorem State.succeed_iter (t : State) : t.succeed.iter = t.iter := rfl
@[simp] theorem State.succeed_crc16 (t : State) : t.succeed.crc16 = t.crc16 := rfl
@[simp] theorem State.succeed_sum8 (t : State) : t.succeed.sum8 = t.sum8 := rfl
@[simp] theorem State.succeed_ksb (t : State) : t.succeed.ksb = t.ksb := rfl
@[simp] theorem State.succeed_k1len (t : State) : t.succeed.k1len = t.k1len := rfl
@[simp] theorem State.succeed_k2len (t : State) : t.succeed.k2len = t.k2len := rfl
@[simp] theorem State.succeed_txcmd (t : State) : t.succeed.txcmd = t.txcmd := rfl
@[simp] theorem State.succeed_txstat (t : State) : t.succeed.txstat = t.txstat := rfl
@[simp] theorem State.succeed_txreq (t : State) : t.succeed.txreq = t.txreq := rfl
@[simp] theorem State.succeed_txver (t : State) : t.succeed.txver = t.txver := rfl
@[simp] theorem State.succeed_txkeyid (t : State) : t.succeed.txkeyid = t.txkeyid := rfl
@[simp] theorem State.succeed_txctl (t : State) : t.succeed.txctl = t.txctl := rfl
@[simp] theorem State.succeed_txxlen (t : State) : t.succeed.txxlen = t.txxlen := rfl
@[simp] theorem State.succeed_sha (t : State) : t.succeed.sha = t.sha := rfl
@[simp] theorem State.succeed_dg (t : State) : t.succeed.dg = t.dg := rfl
@[simp] theorem State.succeed_dk (t : State) : t.succeed.dk = t.dk := rfl
@[simp] theorem State.succeed_s (t : State) : t.succeed.s = t.s := rfl
@[simp] theorem State.succeed_ri (t : State) : t.succeed.ri = t.ri := rfl
@[simp] theorem State.succeed_rj (t : State) : t.succeed.rj = t.rj := rfl
@[simp] theorem State.succeed_fb (t : State) : t.succeed.fb = t.fb := rfl
@[simp] theorem State.succeed_k1b (t : State) : t.succeed.k1b = t.k1b := rfl
@[simp] theorem State.succeed_k2b (t : State) : t.succeed.k2b = t.k2b := rfl
@[simp] theorem State.succeed_txdev (t : State) : t.succeed.txdev = t.txdev := rfl
@[simp] theorem State.succeed_txx (t : State) : t.succeed.txx = t.txx := rfl

@[simp] theorem State.reject_cfg (t : State) (c : RejectCode) : (t.reject c).cfg = t.cfg := rfl
@[simp] theorem State.reject_host (t : State) (c : RejectCode) : (t.reject c).host = t.host := rfl
@[simp] theorem State.reject_reply (t : State) (c : RejectCode) : (t.reject c).reply = t.reply := rfl
@[simp] theorem State.reject_freeCount (t : State) (c : RejectCode) : (t.reject c).freeCount = t.freeCount := rfl
@[simp] theorem State.reject_valid (t : State) (c : RejectCode) : (t.reject c).valid = t.valid := rfl
@[simp] theorem State.reject_crc8ok (t : State) (c : RejectCode) : (t.reject c).crc8ok = t.crc8ok := rfl
@[simp] theorem State.reject_rxenc (t : State) (c : RejectCode) : (t.reject c).rxenc = t.rxenc := rfl
@[simp] theorem State.reject_shav (t : State) (c : RejectCode) : (t.reject c).shav = t.shav := rfl
@[simp] theorem State.reject_dgv (t : State) (c : RejectCode) : (t.reject c).dgv = t.dgv := rfl
@[simp] theorem State.reject_dkv (t : State) (c : RejectCode) : (t.reject c).dkv = t.dkv := rfl
@[simp] theorem State.reject_rc4v (t : State) (c : RejectCode) : (t.reject c).rc4v = t.rc4v := rfl
@[simp] theorem State.reject_fault (t : State) (c : RejectCode) : (t.reject c).fault = t.fault := rfl
@[simp] theorem State.reject_err (t : State) (c : RejectCode) : (t.reject c).err = .reject c := rfl
@[simp] theorem State.reject_flen (t : State) (c : RejectCode) : (t.reject c).flen = t.flen := rfl
@[simp] theorem State.reject_iter (t : State) (c : RejectCode) : (t.reject c).iter = t.iter := rfl
@[simp] theorem State.reject_crc16 (t : State) (c : RejectCode) : (t.reject c).crc16 = t.crc16 := rfl
@[simp] theorem State.reject_sum8 (t : State) (c : RejectCode) : (t.reject c).sum8 = t.sum8 := rfl
@[simp] theorem State.reject_ksb (t : State) (c : RejectCode) : (t.reject c).ksb = t.ksb := rfl
@[simp] theorem State.reject_k1len (t : State) (c : RejectCode) : (t.reject c).k1len = t.k1len := rfl
@[simp] theorem State.reject_k2len (t : State) (c : RejectCode) : (t.reject c).k2len = t.k2len := rfl
@[simp] theorem State.reject_txcmd (t : State) (c : RejectCode) : (t.reject c).txcmd = t.txcmd := rfl
@[simp] theorem State.reject_txstat (t : State) (c : RejectCode) : (t.reject c).txstat = t.txstat := rfl
@[simp] theorem State.reject_txreq (t : State) (c : RejectCode) : (t.reject c).txreq = t.txreq := rfl
@[simp] theorem State.reject_txver (t : State) (c : RejectCode) : (t.reject c).txver = t.txver := rfl
@[simp] theorem State.reject_txkeyid (t : State) (c : RejectCode) : (t.reject c).txkeyid = t.txkeyid := rfl
@[simp] theorem State.reject_txctl (t : State) (c : RejectCode) : (t.reject c).txctl = t.txctl := rfl
@[simp] theorem State.reject_txxlen (t : State) (c : RejectCode) : (t.reject c).txxlen = t.txxlen := rfl
@[simp] theorem State.reject_sha (t : State) (c : RejectCode) : (t.reject c).sha = t.sha := rfl
@[simp] theorem State.reject_dg (t : State) (c : RejectCode) : (t.reject c).dg = t.dg := rfl
@[simp] theorem State.reject_dk (t : State) (c : RejectCode) : (t.reject c).dk = t.dk := rfl
@[simp] theorem State.reject_s (t : State) (c : RejectCode) : (t.reject c).s = t.s := rfl
@[simp] theorem State.reject_ri (t : State) (c : RejectCode) : (t.reject c).ri = t.ri := rfl
@[simp] theorem State.reject_rj (t : State) (c : RejectCode) : (t.reject c).rj = t.rj := rfl
@[simp] theorem State.reject_fb (t : State) (c : RejectCode) : (t.reject c).fb = t.fb := rfl
@[simp] theorem State.reject_k1b (t : State) (c : RejectCode) : (t.reject c).k1b = t.k1b := rfl
@[simp] theorem State.reject_k2b (t : State) (c : RejectCode) : (t.reject c).k2b = t.k2b := rfl
@[simp] theorem State.reject_txdev (t : State) (c : RejectCode) : (t.reject c).txdev = t.txdev := rfl
@[simp] theorem State.reject_txx (t : State) (c : RejectCode) : (t.reject c).txx = t.txx := rfl

@[simp] theorem State.raise_cfg (t : State) (c : FaultCode) : (t.raise c).cfg = t.cfg := rfl
@[simp] theorem State.raise_host (t : State) (c : FaultCode) : (t.raise c).host = t.host := rfl
@[simp] theorem State.raise_reply (t : State) (c : FaultCode) : (t.raise c).reply = t.reply := rfl
@[simp] theorem State.raise_freeCount (t : State) (c : FaultCode) : (t.raise c).freeCount = t.freeCount := rfl
@[simp] theorem State.raise_valid (t : State) (c : FaultCode) : (t.raise c).valid = t.valid := rfl
@[simp] theorem State.raise_crc8ok (t : State) (c : FaultCode) : (t.raise c).crc8ok = t.crc8ok := rfl
@[simp] theorem State.raise_rxenc (t : State) (c : FaultCode) : (t.raise c).rxenc = t.rxenc := rfl
@[simp] theorem State.raise_shav (t : State) (c : FaultCode) : (t.raise c).shav = t.shav := rfl
@[simp] theorem State.raise_dgv (t : State) (c : FaultCode) : (t.raise c).dgv = t.dgv := rfl
@[simp] theorem State.raise_dkv (t : State) (c : FaultCode) : (t.raise c).dkv = t.dkv := rfl
@[simp] theorem State.raise_rc4v (t : State) (c : FaultCode) : (t.raise c).rc4v = t.rc4v := rfl
@[simp] theorem State.raise_fault (t : State) (c : FaultCode) : (t.raise c).fault = true := rfl
@[simp] theorem State.raise_err (t : State) (c : FaultCode) : (t.raise c).err = .fault c := rfl
@[simp] theorem State.raise_flen (t : State) (c : FaultCode) : (t.raise c).flen = t.flen := rfl
@[simp] theorem State.raise_iter (t : State) (c : FaultCode) : (t.raise c).iter = t.iter := rfl
@[simp] theorem State.raise_crc16 (t : State) (c : FaultCode) : (t.raise c).crc16 = t.crc16 := rfl
@[simp] theorem State.raise_sum8 (t : State) (c : FaultCode) : (t.raise c).sum8 = t.sum8 := rfl
@[simp] theorem State.raise_ksb (t : State) (c : FaultCode) : (t.raise c).ksb = t.ksb := rfl
@[simp] theorem State.raise_k1len (t : State) (c : FaultCode) : (t.raise c).k1len = t.k1len := rfl
@[simp] theorem State.raise_k2len (t : State) (c : FaultCode) : (t.raise c).k2len = t.k2len := rfl
@[simp] theorem State.raise_txcmd (t : State) (c : FaultCode) : (t.raise c).txcmd = t.txcmd := rfl
@[simp] theorem State.raise_txstat (t : State) (c : FaultCode) : (t.raise c).txstat = t.txstat := rfl
@[simp] theorem State.raise_txreq (t : State) (c : FaultCode) : (t.raise c).txreq = t.txreq := rfl
@[simp] theorem State.raise_txver (t : State) (c : FaultCode) : (t.raise c).txver = t.txver := rfl
@[simp] theorem State.raise_txkeyid (t : State) (c : FaultCode) : (t.raise c).txkeyid = t.txkeyid := rfl
@[simp] theorem State.raise_txctl (t : State) (c : FaultCode) : (t.raise c).txctl = t.txctl := rfl
@[simp] theorem State.raise_txxlen (t : State) (c : FaultCode) : (t.raise c).txxlen = t.txxlen := rfl
@[simp] theorem State.raise_sha (t : State) (c : FaultCode) : (t.raise c).sha = t.sha := rfl
@[simp] theorem State.raise_dg (t : State) (c : FaultCode) : (t.raise c).dg = t.dg := rfl
@[simp] theorem State.raise_dk (t : State) (c : FaultCode) : (t.raise c).dk = t.dk := rfl
@[simp] theorem State.raise_s (t : State) (c : FaultCode) : (t.raise c).s = t.s := rfl
@[simp] theorem State.raise_ri (t : State) (c : FaultCode) : (t.raise c).ri = t.ri := rfl
@[simp] theorem State.raise_rj (t : State) (c : FaultCode) : (t.raise c).rj = t.rj := rfl
@[simp] theorem State.raise_fb (t : State) (c : FaultCode) : (t.raise c).fb = t.fb := rfl
@[simp] theorem State.raise_k1b (t : State) (c : FaultCode) : (t.raise c).k1b = t.k1b := rfl
@[simp] theorem State.raise_k2b (t : State) (c : FaultCode) : (t.raise c).k2b = t.k2b := rfl
@[simp] theorem State.raise_txdev (t : State) (c : FaultCode) : (t.raise c).txdev = t.txdev := rfl
@[simp] theorem State.raise_txx (t : State) (c : FaultCode) : (t.raise c).txx = t.txx := rfl

@[simp] theorem State.setCipher_cfg (t : State) (c : Rc4) : (t.setCipher c).cfg = t.cfg := rfl
@[simp] theorem State.setCipher_host (t : State) (c : Rc4) : (t.setCipher c).host = t.host := rfl
@[simp] theorem State.setCipher_reply (t : State) (c : Rc4) : (t.setCipher c).reply = t.reply := rfl
@[simp] theorem State.setCipher_freeCount (t : State) (c : Rc4) : (t.setCipher c).freeCount = t.freeCount := rfl
@[simp] theorem State.setCipher_valid (t : State) (c : Rc4) : (t.setCipher c).valid = t.valid := rfl
@[simp] theorem State.setCipher_crc8ok (t : State) (c : Rc4) : (t.setCipher c).crc8ok = t.crc8ok := rfl
@[simp] theorem State.setCipher_rxenc (t : State) (c : Rc4) : (t.setCipher c).rxenc = t.rxenc := rfl
@[simp] theorem State.setCipher_shav (t : State) (c : Rc4) : (t.setCipher c).shav = t.shav := rfl
@[simp] theorem State.setCipher_dgv (t : State) (c : Rc4) : (t.setCipher c).dgv = t.dgv := rfl
@[simp] theorem State.setCipher_dkv (t : State) (c : Rc4) : (t.setCipher c).dkv = t.dkv := rfl
@[simp] theorem State.setCipher_rc4v (t : State) (c : Rc4) : (t.setCipher c).rc4v = t.rc4v := rfl
@[simp] theorem State.setCipher_fault (t : State) (c : Rc4) : (t.setCipher c).fault = t.fault := rfl
@[simp] theorem State.setCipher_err (t : State) (c : Rc4) : (t.setCipher c).err = t.err := rfl
@[simp] theorem State.setCipher_flen (t : State) (c : Rc4) : (t.setCipher c).flen = t.flen := rfl
@[simp] theorem State.setCipher_iter (t : State) (c : Rc4) : (t.setCipher c).iter = t.iter := rfl
@[simp] theorem State.setCipher_crc16 (t : State) (c : Rc4) : (t.setCipher c).crc16 = t.crc16 := rfl
@[simp] theorem State.setCipher_sum8 (t : State) (c : Rc4) : (t.setCipher c).sum8 = t.sum8 := rfl
@[simp] theorem State.setCipher_ksb (t : State) (c : Rc4) : (t.setCipher c).ksb = t.ksb := rfl
@[simp] theorem State.setCipher_k1len (t : State) (c : Rc4) : (t.setCipher c).k1len = t.k1len := rfl
@[simp] theorem State.setCipher_k2len (t : State) (c : Rc4) : (t.setCipher c).k2len = t.k2len := rfl
@[simp] theorem State.setCipher_txcmd (t : State) (c : Rc4) : (t.setCipher c).txcmd = t.txcmd := rfl
@[simp] theorem State.setCipher_txstat (t : State) (c : Rc4) : (t.setCipher c).txstat = t.txstat := rfl
@[simp] theorem State.setCipher_txreq (t : State) (c : Rc4) : (t.setCipher c).txreq = t.txreq := rfl
@[simp] theorem State.setCipher_txver (t : State) (c : Rc4) : (t.setCipher c).txver = t.txver := rfl
@[simp] theorem State.setCipher_txkeyid (t : State) (c : Rc4) : (t.setCipher c).txkeyid = t.txkeyid := rfl
@[simp] theorem State.setCipher_txctl (t : State) (c : Rc4) : (t.setCipher c).txctl = t.txctl := rfl
@[simp] theorem State.setCipher_txxlen (t : State) (c : Rc4) : (t.setCipher c).txxlen = t.txxlen := rfl
@[simp] theorem State.setCipher_sha (t : State) (c : Rc4) : (t.setCipher c).sha = t.sha := rfl
@[simp] theorem State.setCipher_dg (t : State) (c : Rc4) : (t.setCipher c).dg = t.dg := rfl
@[simp] theorem State.setCipher_dk (t : State) (c : Rc4) : (t.setCipher c).dk = t.dk := rfl
@[simp] theorem State.setCipher_s (t : State) (c : Rc4) : (t.setCipher c).s = some c.s := rfl
@[simp] theorem State.setCipher_ri (t : State) (c : Rc4) : (t.setCipher c).ri = c.i := rfl
@[simp] theorem State.setCipher_rj (t : State) (c : Rc4) : (t.setCipher c).rj = c.j := rfl
@[simp] theorem State.setCipher_fb (t : State) (c : Rc4) : (t.setCipher c).fb = t.fb := rfl
@[simp] theorem State.setCipher_k1b (t : State) (c : Rc4) : (t.setCipher c).k1b = t.k1b := rfl
@[simp] theorem State.setCipher_k2b (t : State) (c : Rc4) : (t.setCipher c).k2b = t.k2b := rfl
@[simp] theorem State.setCipher_txdev (t : State) (c : Rc4) : (t.setCipher c).txdev = t.txdev := rfl
@[simp] theorem State.setCipher_txx (t : State) (c : Rc4) : (t.setCipher c).txx = t.txx := rfl

@[simp] theorem State.initSha_cfg (t : State) : t.initSha.cfg = t.cfg := rfl
@[simp] theorem State.initSha_host (t : State) : t.initSha.host = t.host := rfl
@[simp] theorem State.initSha_reply (t : State) : t.initSha.reply = t.reply := rfl
@[simp] theorem State.initSha_freeCount (t : State) : t.initSha.freeCount = t.freeCount := rfl
@[simp] theorem State.initSha_valid (t : State) : t.initSha.valid = t.valid := rfl
@[simp] theorem State.initSha_crc8ok (t : State) : t.initSha.crc8ok = t.crc8ok := rfl
@[simp] theorem State.initSha_rxenc (t : State) : t.initSha.rxenc = t.rxenc := rfl
@[simp] theorem State.initSha_shav (t : State) : t.initSha.shav = true := rfl
@[simp] theorem State.initSha_dgv (t : State) : t.initSha.dgv = t.dgv := rfl
@[simp] theorem State.initSha_dkv (t : State) : t.initSha.dkv = t.dkv := rfl
@[simp] theorem State.initSha_rc4v (t : State) : t.initSha.rc4v = t.rc4v := rfl
@[simp] theorem State.initSha_fault (t : State) : t.initSha.fault = t.fault := rfl
@[simp] theorem State.initSha_err (t : State) : t.initSha.err = t.err := rfl
@[simp] theorem State.initSha_flen (t : State) : t.initSha.flen = t.flen := rfl
@[simp] theorem State.initSha_iter (t : State) : t.initSha.iter = t.iter := rfl
@[simp] theorem State.initSha_crc16 (t : State) : t.initSha.crc16 = t.crc16 := rfl
@[simp] theorem State.initSha_sum8 (t : State) : t.initSha.sum8 = t.sum8 := rfl
@[simp] theorem State.initSha_ksb (t : State) : t.initSha.ksb = t.ksb := rfl
@[simp] theorem State.initSha_k1len (t : State) : t.initSha.k1len = t.k1len := rfl
@[simp] theorem State.initSha_k2len (t : State) : t.initSha.k2len = t.k2len := rfl
@[simp] theorem State.initSha_txcmd (t : State) : t.initSha.txcmd = t.txcmd := rfl
@[simp] theorem State.initSha_txstat (t : State) : t.initSha.txstat = t.txstat := rfl
@[simp] theorem State.initSha_txreq (t : State) : t.initSha.txreq = t.txreq := rfl
@[simp] theorem State.initSha_txver (t : State) : t.initSha.txver = t.txver := rfl
@[simp] theorem State.initSha_txkeyid (t : State) : t.initSha.txkeyid = t.txkeyid := rfl
@[simp] theorem State.initSha_txctl (t : State) : t.initSha.txctl = t.txctl := rfl
@[simp] theorem State.initSha_txxlen (t : State) : t.initSha.txxlen = t.txxlen := rfl
@[simp] theorem State.initSha_sha (t : State) : t.initSha.sha = ShaEngine.init := rfl
@[simp] theorem State.initSha_dg (t : State) : t.initSha.dg = t.dg := rfl
@[simp] theorem State.initSha_dk (t : State) : t.initSha.dk = t.dk := rfl
@[simp] theorem State.initSha_s (t : State) : t.initSha.s = t.s := rfl
@[simp] theorem State.initSha_ri (t : State) : t.initSha.ri = t.ri := rfl
@[simp] theorem State.initSha_rj (t : State) : t.initSha.rj = t.rj := rfl
@[simp] theorem State.initSha_fb (t : State) : t.initSha.fb = t.fb := rfl
@[simp] theorem State.initSha_k1b (t : State) : t.initSha.k1b = t.k1b := rfl
@[simp] theorem State.initSha_k2b (t : State) : t.initSha.k2b = t.k2b := rfl
@[simp] theorem State.initSha_txdev (t : State) : t.initSha.txdev = t.txdev := rfl
@[simp] theorem State.initSha_txx (t : State) : t.initSha.txx = t.txx := rfl

@[simp] theorem State.answer_cfg (t : State) (r : Reply) : (t.answer r).cfg = t.cfg := rfl
@[simp] theorem State.answer_host (t : State) (r : Reply) : (t.answer r).host = t.host := rfl
@[simp] theorem State.answer_reply (t : State) (r : Reply) : (t.answer r).reply = r := rfl
@[simp] theorem State.answer_freeCount (t : State) (r : Reply) : (t.answer r).freeCount = t.freeCount := rfl
@[simp] theorem State.answer_valid (t : State) (r : Reply) : (t.answer r).valid = t.valid := rfl
@[simp] theorem State.answer_crc8ok (t : State) (r : Reply) : (t.answer r).crc8ok = t.crc8ok := rfl
@[simp] theorem State.answer_rxenc (t : State) (r : Reply) : (t.answer r).rxenc = t.rxenc := rfl
@[simp] theorem State.answer_shav (t : State) (r : Reply) : (t.answer r).shav = t.shav := rfl
@[simp] theorem State.answer_dgv (t : State) (r : Reply) : (t.answer r).dgv = t.dgv := rfl
@[simp] theorem State.answer_dkv (t : State) (r : Reply) : (t.answer r).dkv = t.dkv := rfl
@[simp] theorem State.answer_rc4v (t : State) (r : Reply) : (t.answer r).rc4v = t.rc4v := rfl
@[simp] theorem State.answer_fault (t : State) (r : Reply) : (t.answer r).fault = t.fault := rfl
@[simp] theorem State.answer_err (t : State) (r : Reply) : (t.answer r).err = t.err := rfl
@[simp] theorem State.answer_flen (t : State) (r : Reply) : (t.answer r).flen = t.flen := rfl
@[simp] theorem State.answer_iter (t : State) (r : Reply) : (t.answer r).iter = t.iter := rfl
@[simp] theorem State.answer_crc16 (t : State) (r : Reply) : (t.answer r).crc16 = t.crc16 := rfl
@[simp] theorem State.answer_sum8 (t : State) (r : Reply) : (t.answer r).sum8 = t.sum8 := rfl
@[simp] theorem State.answer_ksb (t : State) (r : Reply) : (t.answer r).ksb = t.ksb := rfl
@[simp] theorem State.answer_k1len (t : State) (r : Reply) : (t.answer r).k1len = t.k1len := rfl
@[simp] theorem State.answer_k2len (t : State) (r : Reply) : (t.answer r).k2len = t.k2len := rfl
@[simp] theorem State.answer_txcmd (t : State) (r : Reply) : (t.answer r).txcmd = t.txcmd := rfl
@[simp] theorem State.answer_txstat (t : State) (r : Reply) : (t.answer r).txstat = t.txstat := rfl
@[simp] theorem State.answer_txreq (t : State) (r : Reply) : (t.answer r).txreq = t.txreq := rfl
@[simp] theorem State.answer_txver (t : State) (r : Reply) : (t.answer r).txver = t.txver := rfl
@[simp] theorem State.answer_txkeyid (t : State) (r : Reply) : (t.answer r).txkeyid = t.txkeyid := rfl
@[simp] theorem State.answer_txctl (t : State) (r : Reply) : (t.answer r).txctl = t.txctl := rfl
@[simp] theorem State.answer_txxlen (t : State) (r : Reply) : (t.answer r).txxlen = t.txxlen := rfl
@[simp] theorem State.answer_sha (t : State) (r : Reply) : (t.answer r).sha = t.sha := rfl
@[simp] theorem State.answer_dg (t : State) (r : Reply) : (t.answer r).dg = t.dg := rfl
@[simp] theorem State.answer_dk (t : State) (r : Reply) : (t.answer r).dk = t.dk := rfl
@[simp] theorem State.answer_s (t : State) (r : Reply) : (t.answer r).s = t.s := rfl
@[simp] theorem State.answer_ri (t : State) (r : Reply) : (t.answer r).ri = t.ri := rfl
@[simp] theorem State.answer_rj (t : State) (r : Reply) : (t.answer r).rj = t.rj := rfl
@[simp] theorem State.answer_fb (t : State) (r : Reply) : (t.answer r).fb = t.fb := rfl
@[simp] theorem State.answer_k1b (t : State) (r : Reply) : (t.answer r).k1b = t.k1b := rfl
@[simp] theorem State.answer_k2b (t : State) (r : Reply) : (t.answer r).k2b = t.k2b := rfl
@[simp] theorem State.answer_txdev (t : State) (r : Reply) : (t.answer r).txdev = t.txdev := rfl
@[simp] theorem State.answer_txx (t : State) (r : Reply) : (t.answer r).txx = t.txx := rfl

@[simp] theorem State.takeFree_cfg (t : State) : t.takeFree.cfg = t.cfg := rfl
@[simp] theorem State.takeFree_host (t : State) : t.takeFree.host = t.host := rfl
@[simp] theorem State.takeFree_reply (t : State) : t.takeFree.reply = t.reply := rfl
@[simp] theorem State.takeFree_freeCount (t : State) : t.takeFree.freeCount = t.freeCount + 1 := rfl
@[simp] theorem State.takeFree_valid (t : State) : t.takeFree.valid = t.valid := rfl
@[simp] theorem State.takeFree_crc8ok (t : State) : t.takeFree.crc8ok = t.crc8ok := rfl
@[simp] theorem State.takeFree_rxenc (t : State) : t.takeFree.rxenc = t.rxenc := rfl
@[simp] theorem State.takeFree_shav (t : State) : t.takeFree.shav = t.shav := rfl
@[simp] theorem State.takeFree_dgv (t : State) : t.takeFree.dgv = t.dgv := rfl
@[simp] theorem State.takeFree_dkv (t : State) : t.takeFree.dkv = t.dkv := rfl
@[simp] theorem State.takeFree_rc4v (t : State) : t.takeFree.rc4v = t.rc4v := rfl
@[simp] theorem State.takeFree_fault (t : State) : t.takeFree.fault = t.fault := rfl
@[simp] theorem State.takeFree_err (t : State) : t.takeFree.err = t.err := rfl
@[simp] theorem State.takeFree_flen (t : State) : t.takeFree.flen = t.flen := rfl
@[simp] theorem State.takeFree_iter (t : State) : t.takeFree.iter = t.iter := rfl
@[simp] theorem State.takeFree_crc16 (t : State) : t.takeFree.crc16 = t.crc16 := rfl
@[simp] theorem State.takeFree_sum8 (t : State) : t.takeFree.sum8 = t.sum8 := rfl
@[simp] theorem State.takeFree_ksb (t : State) : t.takeFree.ksb = t.ksb := rfl
@[simp] theorem State.takeFree_k1len (t : State) : t.takeFree.k1len = t.k1len := rfl
@[simp] theorem State.takeFree_k2len (t : State) : t.takeFree.k2len = t.k2len := rfl
@[simp] theorem State.takeFree_txcmd (t : State) : t.takeFree.txcmd = t.txcmd := rfl
@[simp] theorem State.takeFree_txstat (t : State) : t.takeFree.txstat = t.txstat := rfl
@[simp] theorem State.takeFree_txreq (t : State) : t.takeFree.txreq = t.txreq := rfl
@[simp] theorem State.takeFree_txver (t : State) : t.takeFree.txver = t.txver := rfl
@[simp] theorem State.takeFree_txkeyid (t : State) : t.takeFree.txkeyid = t.txkeyid := rfl
@[simp] theorem State.takeFree_txctl (t : State) : t.takeFree.txctl = t.txctl := rfl
@[simp] theorem State.takeFree_txxlen (t : State) : t.takeFree.txxlen = t.txxlen := rfl
@[simp] theorem State.takeFree_sha (t : State) : t.takeFree.sha = t.sha := rfl
@[simp] theorem State.takeFree_dg (t : State) : t.takeFree.dg = t.dg := rfl
@[simp] theorem State.takeFree_dk (t : State) : t.takeFree.dk = t.dk := rfl
@[simp] theorem State.takeFree_s (t : State) : t.takeFree.s = t.s := rfl
@[simp] theorem State.takeFree_ri (t : State) : t.takeFree.ri = t.ri := rfl
@[simp] theorem State.takeFree_rj (t : State) : t.takeFree.rj = t.rj := rfl
@[simp] theorem State.takeFree_fb (t : State) : t.takeFree.fb = t.fb := rfl
@[simp] theorem State.takeFree_k1b (t : State) : t.takeFree.k1b = t.k1b := rfl
@[simp] theorem State.takeFree_k2b (t : State) : t.takeFree.k2b = t.k2b := rfl
@[simp] theorem State.takeFree_txdev (t : State) : t.takeFree.txdev = t.txdev := rfl
@[simp] theorem State.takeFree_txx (t : State) : t.takeFree.txx = t.txx := rfl

@[simp] theorem State.reportSegment_cfg (t : State) (seg : List Byte) : (t.reportSegment seg).cfg = t.cfg := rfl
@[simp] theorem State.reportSegment_host (t : State) (seg : List Byte) : (t.reportSegment seg).host = t.host := rfl
@[simp] theorem State.reportSegment_reply (t : State) (seg : List Byte) : (t.reportSegment seg).reply = t.reply := rfl
@[simp] theorem State.reportSegment_freeCount (t : State) (seg : List Byte) : (t.reportSegment seg).freeCount = t.freeCount := rfl
@[simp] theorem State.reportSegment_valid (t : State) (seg : List Byte) : (t.reportSegment seg).valid = t.valid := rfl
@[simp] theorem State.reportSegment_crc8ok (t : State) (seg : List Byte) : (t.reportSegment seg).crc8ok = crc8Matches (segmentSum seg) (segmentCrc8 seg) := rfl
@[simp] theorem State.reportSegment_rxenc (t : State) (seg : List Byte) : (t.reportSegment seg).rxenc = t.rxenc := rfl
@[simp] theorem State.reportSegment_shav (t : State) (seg : List Byte) : (t.reportSegment seg).shav = t.shav := rfl
@[simp] theorem State.reportSegment_dgv (t : State) (seg : List Byte) : (t.reportSegment seg).dgv = t.dgv := rfl
@[simp] theorem State.reportSegment_dkv (t : State) (seg : List Byte) : (t.reportSegment seg).dkv = t.dkv := rfl
@[simp] theorem State.reportSegment_rc4v (t : State) (seg : List Byte) : (t.reportSegment seg).rc4v = t.rc4v := rfl
@[simp] theorem State.reportSegment_fault (t : State) (seg : List Byte) : (t.reportSegment seg).fault = t.fault := rfl
@[simp] theorem State.reportSegment_err (t : State) (seg : List Byte) : (t.reportSegment seg).err = .ok := rfl
@[simp] theorem State.reportSegment_flen (t : State) (seg : List Byte) : (t.reportSegment seg).flen = t.flen := rfl
@[simp] theorem State.reportSegment_iter (t : State) (seg : List Byte) : (t.reportSegment seg).iter = t.iter := rfl
@[simp] theorem State.reportSegment_crc16 (t : State) (seg : List Byte) : (t.reportSegment seg).crc16 = t.crc16 := rfl
@[simp] theorem State.reportSegment_sum8 (t : State) (seg : List Byte) : (t.reportSegment seg).sum8 = segmentSum seg := rfl
@[simp] theorem State.reportSegment_ksb (t : State) (seg : List Byte) : (t.reportSegment seg).ksb = t.ksb := rfl
@[simp] theorem State.reportSegment_k1len (t : State) (seg : List Byte) : (t.reportSegment seg).k1len = t.k1len := rfl
@[simp] theorem State.reportSegment_k2len (t : State) (seg : List Byte) : (t.reportSegment seg).k2len = t.k2len := rfl
@[simp] theorem State.reportSegment_txcmd (t : State) (seg : List Byte) : (t.reportSegment seg).txcmd = t.txcmd := rfl
@[simp] theorem State.reportSegment_txstat (t : State) (seg : List Byte) : (t.reportSegment seg).txstat = t.txstat := rfl
@[simp] theorem State.reportSegment_txreq (t : State) (seg : List Byte) : (t.reportSegment seg).txreq = t.txreq := rfl
@[simp] theorem State.reportSegment_txver (t : State) (seg : List Byte) : (t.reportSegment seg).txver = t.txver := rfl
@[simp] theorem State.reportSegment_txkeyid (t : State) (seg : List Byte) : (t.reportSegment seg).txkeyid = t.txkeyid := rfl
@[simp] theorem State.reportSegment_txctl (t : State) (seg : List Byte) : (t.reportSegment seg).txctl = t.txctl := rfl
@[simp] theorem State.reportSegment_txxlen (t : State) (seg : List Byte) : (t.reportSegment seg).txxlen = t.txxlen := rfl
@[simp] theorem State.reportSegment_sha (t : State) (seg : List Byte) : (t.reportSegment seg).sha = t.sha := rfl
@[simp] theorem State.reportSegment_dg (t : State) (seg : List Byte) : (t.reportSegment seg).dg = t.dg := rfl
@[simp] theorem State.reportSegment_dk (t : State) (seg : List Byte) : (t.reportSegment seg).dk = t.dk := rfl
@[simp] theorem State.reportSegment_s (t : State) (seg : List Byte) : (t.reportSegment seg).s = t.s := rfl
@[simp] theorem State.reportSegment_ri (t : State) (seg : List Byte) : (t.reportSegment seg).ri = t.ri := rfl
@[simp] theorem State.reportSegment_rj (t : State) (seg : List Byte) : (t.reportSegment seg).rj = t.rj := rfl
@[simp] theorem State.reportSegment_fb (t : State) (seg : List Byte) : (t.reportSegment seg).fb = t.fb := rfl
@[simp] theorem State.reportSegment_k1b (t : State) (seg : List Byte) : (t.reportSegment seg).k1b = t.k1b := rfl
@[simp] theorem State.reportSegment_k2b (t : State) (seg : List Byte) : (t.reportSegment seg).k2b = t.k2b := rfl
@[simp] theorem State.reportSegment_txdev (t : State) (seg : List Byte) : (t.reportSegment seg).txdev = t.txdev := rfl
@[simp] theorem State.reportSegment_txx (t : State) (seg : List Byte) : (t.reportSegment seg).txx = t.txx := rfl

@[simp] theorem State.resetBlock_cfg (t : State) : t.resetBlock.cfg = t.cfg := rfl
@[simp] theorem State.resetBlock_host (t : State) : t.resetBlock.host = t.host := rfl
@[simp] theorem State.resetBlock_reply (t : State) : t.resetBlock.reply = t.reply := rfl
@[simp] theorem State.resetBlock_freeCount (t : State) : t.resetBlock.freeCount = t.freeCount := rfl
@[simp] theorem State.resetBlock_valid (t : State) : t.resetBlock.valid = (State.resetWith t.cfg).valid := rfl
@[simp] theorem State.resetBlock_crc8ok (t : State) : t.resetBlock.crc8ok = (State.resetWith t.cfg).crc8ok := rfl
@[simp] theorem State.resetBlock_rxenc (t : State) : t.resetBlock.rxenc = (State.resetWith t.cfg).rxenc := rfl
@[simp] theorem State.resetBlock_shav (t : State) : t.resetBlock.shav = (State.resetWith t.cfg).shav := rfl
@[simp] theorem State.resetBlock_dgv (t : State) : t.resetBlock.dgv = (State.resetWith t.cfg).dgv := rfl
@[simp] theorem State.resetBlock_dkv (t : State) : t.resetBlock.dkv = (State.resetWith t.cfg).dkv := rfl
@[simp] theorem State.resetBlock_rc4v (t : State) : t.resetBlock.rc4v = (State.resetWith t.cfg).rc4v := rfl
@[simp] theorem State.resetBlock_fault (t : State) : t.resetBlock.fault = (State.resetWith t.cfg).fault := rfl
@[simp] theorem State.resetBlock_err (t : State) : t.resetBlock.err = (State.resetWith t.cfg).err := rfl
@[simp] theorem State.resetBlock_flen (t : State) : t.resetBlock.flen = (State.resetWith t.cfg).flen := rfl
@[simp] theorem State.resetBlock_iter (t : State) : t.resetBlock.iter = (State.resetWith t.cfg).iter := rfl
@[simp] theorem State.resetBlock_crc16 (t : State) : t.resetBlock.crc16 = (State.resetWith t.cfg).crc16 := rfl
@[simp] theorem State.resetBlock_sum8 (t : State) : t.resetBlock.sum8 = (State.resetWith t.cfg).sum8 := rfl
@[simp] theorem State.resetBlock_ksb (t : State) : t.resetBlock.ksb = (State.resetWith t.cfg).ksb := rfl
@[simp] theorem State.resetBlock_k1len (t : State) : t.resetBlock.k1len = (State.resetWith t.cfg).k1len := rfl
@[simp] theorem State.resetBlock_k2len (t : State) : t.resetBlock.k2len = (State.resetWith t.cfg).k2len := rfl
@[simp] theorem State.resetBlock_txcmd (t : State) : t.resetBlock.txcmd = (State.resetWith t.cfg).txcmd := rfl
@[simp] theorem State.resetBlock_txstat (t : State) : t.resetBlock.txstat = (State.resetWith t.cfg).txstat := rfl
@[simp] theorem State.resetBlock_txreq (t : State) : t.resetBlock.txreq = (State.resetWith t.cfg).txreq := rfl
@[simp] theorem State.resetBlock_txver (t : State) : t.resetBlock.txver = (State.resetWith t.cfg).txver := rfl
@[simp] theorem State.resetBlock_txkeyid (t : State) : t.resetBlock.txkeyid = (State.resetWith t.cfg).txkeyid := rfl
@[simp] theorem State.resetBlock_txctl (t : State) : t.resetBlock.txctl = (State.resetWith t.cfg).txctl := rfl
@[simp] theorem State.resetBlock_txxlen (t : State) : t.resetBlock.txxlen = (State.resetWith t.cfg).txxlen := rfl
@[simp] theorem State.resetBlock_sha (t : State) : t.resetBlock.sha = (State.resetWith t.cfg).sha := rfl
@[simp] theorem State.resetBlock_dg (t : State) : t.resetBlock.dg = (State.resetWith t.cfg).dg := rfl
@[simp] theorem State.resetBlock_dk (t : State) : t.resetBlock.dk = (State.resetWith t.cfg).dk := rfl
@[simp] theorem State.resetBlock_s (t : State) : t.resetBlock.s = (State.resetWith t.cfg).s := rfl
@[simp] theorem State.resetBlock_ri (t : State) : t.resetBlock.ri = (State.resetWith t.cfg).ri := rfl
@[simp] theorem State.resetBlock_rj (t : State) : t.resetBlock.rj = (State.resetWith t.cfg).rj := rfl
@[simp] theorem State.resetBlock_fb (t : State) : t.resetBlock.fb = (State.resetWith t.cfg).fb := rfl
@[simp] theorem State.resetBlock_k1b (t : State) : t.resetBlock.k1b = (State.resetWith t.cfg).k1b := rfl
@[simp] theorem State.resetBlock_k2b (t : State) : t.resetBlock.k2b = (State.resetWith t.cfg).k2b := rfl
@[simp] theorem State.resetBlock_txdev (t : State) : t.resetBlock.txdev = (State.resetWith t.cfg).txdev := rfl
@[simp] theorem State.resetBlock_txx (t : State) : t.resetBlock.txx = (State.resetWith t.cfg).txx := rfl

@[simp] theorem State.setBuffer_cfg (t : State) (b : Buf) (m : Memory) : (t.setBuffer b m).cfg = t.cfg := by cases b <;> rfl
@[simp] theorem State.setBuffer_host (t : State) (b : Buf) (m : Memory) : (t.setBuffer b m).host = t.host := by cases b <;> rfl
@[simp] theorem State.setBuffer_reply (t : State) (b : Buf) (m : Memory) : (t.setBuffer b m).reply = t.reply := by cases b <;> rfl
@[simp] theorem State.setBuffer_freeCount (t : State) (b : Buf) (m : Memory) : (t.setBuffer b m).freeCount = t.freeCount := by cases b <;> rfl
@[simp] theorem State.setBuffer_valid (t : State) (b : Buf) (m : Memory) : (t.setBuffer b m).valid = t.valid := by cases b <;> rfl
@[simp] theorem State.setBuffer_crc8ok (t : State) (b : Buf) (m : Memory) : (t.setBuffer b m).crc8ok = t.crc8ok := by cases b <;> rfl
@[simp] theorem State.setBuffer_rxenc (t : State) (b : Buf) (m : Memory) : (t.setBuffer b m).rxenc = t.rxenc := by cases b <;> rfl
@[simp] theorem State.setBuffer_shav (t : State) (b : Buf) (m : Memory) : (t.setBuffer b m).shav = t.shav := by cases b <;> rfl
@[simp] theorem State.setBuffer_dgv (t : State) (b : Buf) (m : Memory) : (t.setBuffer b m).dgv = t.dgv := by cases b <;> rfl
@[simp] theorem State.setBuffer_dkv (t : State) (b : Buf) (m : Memory) : (t.setBuffer b m).dkv = t.dkv := by cases b <;> rfl
@[simp] theorem State.setBuffer_rc4v (t : State) (b : Buf) (m : Memory) : (t.setBuffer b m).rc4v = t.rc4v := by cases b <;> rfl
@[simp] theorem State.setBuffer_fault (t : State) (b : Buf) (m : Memory) : (t.setBuffer b m).fault = t.fault := by cases b <;> rfl
@[simp] theorem State.setBuffer_err (t : State) (b : Buf) (m : Memory) : (t.setBuffer b m).err = t.err := by cases b <;> rfl
@[simp] theorem State.setBuffer_flen (t : State) (b : Buf) (m : Memory) : (t.setBuffer b m).flen = t.flen := by cases b <;> rfl
@[simp] theorem State.setBuffer_iter (t : State) (b : Buf) (m : Memory) : (t.setBuffer b m).iter = t.iter := by cases b <;> rfl
@[simp] theorem State.setBuffer_crc16 (t : State) (b : Buf) (m : Memory) : (t.setBuffer b m).crc16 = t.crc16 := by cases b <;> rfl
@[simp] theorem State.setBuffer_sum8 (t : State) (b : Buf) (m : Memory) : (t.setBuffer b m).sum8 = t.sum8 := by cases b <;> rfl
@[simp] theorem State.setBuffer_ksb (t : State) (b : Buf) (m : Memory) : (t.setBuffer b m).ksb = t.ksb := by cases b <;> rfl
@[simp] theorem State.setBuffer_k1len (t : State) (b : Buf) (m : Memory) : (t.setBuffer b m).k1len = t.k1len := by cases b <;> rfl
@[simp] theorem State.setBuffer_k2len (t : State) (b : Buf) (m : Memory) : (t.setBuffer b m).k2len = t.k2len := by cases b <;> rfl
@[simp] theorem State.setBuffer_txcmd (t : State) (b : Buf) (m : Memory) : (t.setBuffer b m).txcmd = t.txcmd := by cases b <;> rfl
@[simp] theorem State.setBuffer_txstat (t : State) (b : Buf) (m : Memory) : (t.setBuffer b m).txstat = t.txstat := by cases b <;> rfl
@[simp] theorem State.setBuffer_txreq (t : State) (b : Buf) (m : Memory) : (t.setBuffer b m).txreq = t.txreq := by cases b <;> rfl
@[simp] theorem State.setBuffer_txver (t : State) (b : Buf) (m : Memory) : (t.setBuffer b m).txver = t.txver := by cases b <;> rfl
@[simp] theorem State.setBuffer_txkeyid (t : State) (b : Buf) (m : Memory) : (t.setBuffer b m).txkeyid = t.txkeyid := by cases b <;> rfl
@[simp] theorem State.setBuffer_txctl (t : State) (b : Buf) (m : Memory) : (t.setBuffer b m).txctl = t.txctl := by cases b <;> rfl
@[simp] theorem State.setBuffer_txxlen (t : State) (b : Buf) (m : Memory) : (t.setBuffer b m).txxlen = t.txxlen := by cases b <;> rfl
@[simp] theorem State.setBuffer_sha (t : State) (b : Buf) (m : Memory) : (t.setBuffer b m).sha = t.sha := by cases b <;> rfl
@[simp] theorem State.setBuffer_dg (t : State) (b : Buf) (m : Memory) : (t.setBuffer b m).dg = t.dg := by cases b <;> rfl
@[simp] theorem State.setBuffer_dk (t : State) (b : Buf) (m : Memory) : (t.setBuffer b m).dk = t.dk := by cases b <;> rfl
@[simp] theorem State.setBuffer_s (t : State) (b : Buf) (m : Memory) : (t.setBuffer b m).s = t.s := by cases b <;> rfl
@[simp] theorem State.setBuffer_ri (t : State) (b : Buf) (m : Memory) : (t.setBuffer b m).ri = t.ri := by cases b <;> rfl
@[simp] theorem State.setBuffer_rj (t : State) (b : Buf) (m : Memory) : (t.setBuffer b m).rj = t.rj := by cases b <;> rfl

@[simp] theorem State.writeReg_cfg (t : State) (r : Reg) (v : Word) : (t.writeReg r v).cfg = t.cfg := by cases r <;> rfl
@[simp] theorem State.writeReg_host (t : State) (r : Reg) (v : Word) : (t.writeReg r v).host = t.host := by cases r <;> rfl
@[simp] theorem State.writeReg_reply (t : State) (r : Reg) (v : Word) : (t.writeReg r v).reply = t.reply := by cases r <;> rfl
@[simp] theorem State.writeReg_freeCount (t : State) (r : Reg) (v : Word) : (t.writeReg r v).freeCount = t.freeCount := by cases r <;> rfl
@[simp] theorem State.writeReg_valid (t : State) (r : Reg) (v : Word) : (t.writeReg r v).valid = t.valid := by cases r <;> rfl
@[simp] theorem State.writeReg_crc8ok (t : State) (r : Reg) (v : Word) : (t.writeReg r v).crc8ok = t.crc8ok := by cases r <;> rfl
@[simp] theorem State.writeReg_rxenc (t : State) (r : Reg) (v : Word) : (t.writeReg r v).rxenc = t.rxenc := by cases r <;> rfl
@[simp] theorem State.writeReg_shav (t : State) (r : Reg) (v : Word) : (t.writeReg r v).shav = t.shav := by cases r <;> rfl
@[simp] theorem State.writeReg_dgv (t : State) (r : Reg) (v : Word) : (t.writeReg r v).dgv = t.dgv := by cases r <;> rfl
@[simp] theorem State.writeReg_dkv (t : State) (r : Reg) (v : Word) : (t.writeReg r v).dkv = t.dkv := by cases r <;> rfl
@[simp] theorem State.writeReg_rc4v (t : State) (r : Reg) (v : Word) : (t.writeReg r v).rc4v = t.rc4v := by cases r <;> rfl
@[simp] theorem State.writeReg_fault (t : State) (r : Reg) (v : Word) : (t.writeReg r v).fault = t.fault := by cases r <;> rfl
@[simp] theorem State.writeReg_err (t : State) (r : Reg) (v : Word) : (t.writeReg r v).err = t.err := by cases r <;> rfl
@[simp] theorem State.writeReg_crc16 (t : State) (r : Reg) (v : Word) : (t.writeReg r v).crc16 = t.crc16 := by cases r <;> rfl
@[simp] theorem State.writeReg_sum8 (t : State) (r : Reg) (v : Word) : (t.writeReg r v).sum8 = t.sum8 := by cases r <;> rfl
@[simp] theorem State.writeReg_ksb (t : State) (r : Reg) (v : Word) : (t.writeReg r v).ksb = t.ksb := by cases r <;> rfl
@[simp] theorem State.writeReg_sha (t : State) (r : Reg) (v : Word) : (t.writeReg r v).sha = t.sha := by cases r <;> rfl
@[simp] theorem State.writeReg_dg (t : State) (r : Reg) (v : Word) : (t.writeReg r v).dg = t.dg := by cases r <;> rfl
@[simp] theorem State.writeReg_dk (t : State) (r : Reg) (v : Word) : (t.writeReg r v).dk = t.dk := by cases r <;> rfl
@[simp] theorem State.writeReg_s (t : State) (r : Reg) (v : Word) : (t.writeReg r v).s = t.s := by cases r <;> rfl
@[simp] theorem State.writeReg_ri (t : State) (r : Reg) (v : Word) : (t.writeReg r v).ri = t.ri := by cases r <;> rfl
@[simp] theorem State.writeReg_rj (t : State) (r : Reg) (v : Word) : (t.writeReg r v).rj = t.rj := by cases r <;> rfl
@[simp] theorem State.writeReg_fb (t : State) (r : Reg) (v : Word) : (t.writeReg r v).fb = t.fb := by cases r <;> rfl
@[simp] theorem State.writeReg_k1b (t : State) (r : Reg) (v : Word) : (t.writeReg r v).k1b = t.k1b := by cases r <;> rfl
@[simp] theorem State.writeReg_k2b (t : State) (r : Reg) (v : Word) : (t.writeReg r v).k2b = t.k2b := by cases r <;> rfl
@[simp] theorem State.writeReg_txdev (t : State) (r : Reg) (v : Word) : (t.writeReg r v).txdev = t.txdev := by cases r <;> rfl
@[simp] theorem State.writeReg_txx (t : State) (r : Reg) (v : Word) : (t.writeReg r v).txx = t.txx := by cases r <;> rfl

@[simp] theorem State.storeReply_cfg (t : State) (r : ReplyArgs) (seg : List Byte) : (t.storeReply r seg).cfg = t.cfg := rfl
@[simp] theorem State.storeReply_host (t : State) (r : ReplyArgs) (seg : List Byte) : (t.storeReply r seg).host = t.host := rfl
@[simp] theorem State.storeReply_reply (t : State) (r : ReplyArgs) (seg : List Byte) : (t.storeReply r seg).reply = t.reply := rfl
@[simp] theorem State.storeReply_freeCount (t : State) (r : ReplyArgs) (seg : List Byte) : (t.storeReply r seg).freeCount = t.freeCount := rfl
@[simp] theorem State.storeReply_valid (t : State) (r : ReplyArgs) (seg : List Byte) : (t.storeReply r seg).valid = t.valid := rfl
@[simp] theorem State.storeReply_crc8ok (t : State) (r : ReplyArgs) (seg : List Byte) : (t.storeReply r seg).crc8ok = t.crc8ok := rfl
@[simp] theorem State.storeReply_rxenc (t : State) (r : ReplyArgs) (seg : List Byte) : (t.storeReply r seg).rxenc = t.rxenc := rfl
@[simp] theorem State.storeReply_shav (t : State) (r : ReplyArgs) (seg : List Byte) : (t.storeReply r seg).shav = t.shav := rfl
@[simp] theorem State.storeReply_dgv (t : State) (r : ReplyArgs) (seg : List Byte) : (t.storeReply r seg).dgv = t.dgv := rfl
@[simp] theorem State.storeReply_dkv (t : State) (r : ReplyArgs) (seg : List Byte) : (t.storeReply r seg).dkv = t.dkv := rfl
@[simp] theorem State.storeReply_rc4v (t : State) (r : ReplyArgs) (seg : List Byte) : (t.storeReply r seg).rc4v = t.rc4v := rfl
@[simp] theorem State.storeReply_fault (t : State) (r : ReplyArgs) (seg : List Byte) : (t.storeReply r seg).fault = t.fault := rfl
@[simp] theorem State.storeReply_iter (t : State) (r : ReplyArgs) (seg : List Byte) : (t.storeReply r seg).iter = t.iter := rfl
@[simp] theorem State.storeReply_sum8 (t : State) (r : ReplyArgs) (seg : List Byte) : (t.storeReply r seg).sum8 = t.sum8 := rfl
@[simp] theorem State.storeReply_ksb (t : State) (r : ReplyArgs) (seg : List Byte) : (t.storeReply r seg).ksb = t.ksb := rfl
@[simp] theorem State.storeReply_k1len (t : State) (r : ReplyArgs) (seg : List Byte) : (t.storeReply r seg).k1len = t.k1len := rfl
@[simp] theorem State.storeReply_k2len (t : State) (r : ReplyArgs) (seg : List Byte) : (t.storeReply r seg).k2len = t.k2len := rfl
@[simp] theorem State.storeReply_txcmd (t : State) (r : ReplyArgs) (seg : List Byte) : (t.storeReply r seg).txcmd = t.txcmd := rfl
@[simp] theorem State.storeReply_txstat (t : State) (r : ReplyArgs) (seg : List Byte) : (t.storeReply r seg).txstat = t.txstat := rfl
@[simp] theorem State.storeReply_txreq (t : State) (r : ReplyArgs) (seg : List Byte) : (t.storeReply r seg).txreq = t.txreq := rfl
@[simp] theorem State.storeReply_txver (t : State) (r : ReplyArgs) (seg : List Byte) : (t.storeReply r seg).txver = t.txver := rfl
@[simp] theorem State.storeReply_txkeyid (t : State) (r : ReplyArgs) (seg : List Byte) : (t.storeReply r seg).txkeyid = t.txkeyid := rfl
@[simp] theorem State.storeReply_txctl (t : State) (r : ReplyArgs) (seg : List Byte) : (t.storeReply r seg).txctl = t.txctl := rfl
@[simp] theorem State.storeReply_txxlen (t : State) (r : ReplyArgs) (seg : List Byte) : (t.storeReply r seg).txxlen = t.txxlen := rfl
@[simp] theorem State.storeReply_sha (t : State) (r : ReplyArgs) (seg : List Byte) : (t.storeReply r seg).sha = t.sha := rfl
@[simp] theorem State.storeReply_dg (t : State) (r : ReplyArgs) (seg : List Byte) : (t.storeReply r seg).dg = t.dg := rfl
@[simp] theorem State.storeReply_dk (t : State) (r : ReplyArgs) (seg : List Byte) : (t.storeReply r seg).dk = t.dk := rfl
@[simp] theorem State.storeReply_s (t : State) (r : ReplyArgs) (seg : List Byte) : (t.storeReply r seg).s = t.s := rfl
@[simp] theorem State.storeReply_ri (t : State) (r : ReplyArgs) (seg : List Byte) : (t.storeReply r seg).ri = t.ri := rfl
@[simp] theorem State.storeReply_rj (t : State) (r : ReplyArgs) (seg : List Byte) : (t.storeReply r seg).rj = t.rj := rfl
@[simp] theorem State.storeReply_k1b (t : State) (r : ReplyArgs) (seg : List Byte) : (t.storeReply r seg).k1b = t.k1b := rfl
@[simp] theorem State.storeReply_k2b (t : State) (r : ReplyArgs) (seg : List Byte) : (t.storeReply r seg).k2b = t.k2b := rfl
@[simp] theorem State.storeReply_txdev (t : State) (r : ReplyArgs) (seg : List Byte) : (t.storeReply r seg).txdev = t.txdev := rfl
@[simp] theorem State.storeReply_txx (t : State) (r : ReplyArgs) (seg : List Byte) : (t.storeReply r seg).txx = t.txx := rfl

@[simp] theorem State.validated_cfg (t : State) (f : List Byte) : (t.validated f).cfg = t.cfg := by
  unfold State.validated; split <;> [rfl; (split <;> [rfl; (simp only []; split <;> rfl)])]
@[simp] theorem State.validated_host (t : State) (f : List Byte) : (t.validated f).host = t.host := by
  unfold State.validated; split <;> [rfl; (split <;> [rfl; (simp only []; split <;> rfl)])]
@[simp] theorem State.validated_reply (t : State) (f : List Byte) : (t.validated f).reply = t.reply := by
  unfold State.validated; split <;> [rfl; (split <;> [rfl; (simp only []; split <;> rfl)])]
@[simp] theorem State.validated_freeCount (t : State) (f : List Byte) : (t.validated f).freeCount = t.freeCount := by
  unfold State.validated; split <;> [rfl; (split <;> [rfl; (simp only []; split <;> rfl)])]
@[simp] theorem State.validated_crc8ok (t : State) (f : List Byte) : (t.validated f).crc8ok = t.crc8ok := by
  unfold State.validated; split <;> [rfl; (split <;> [rfl; (simp only []; split <;> rfl)])]
@[simp] theorem State.validated_rxenc (t : State) (f : List Byte) : (t.validated f).rxenc = t.rxenc := by
  unfold State.validated; split <;> [rfl; (split <;> [rfl; (simp only []; split <;> rfl)])]
@[simp] theorem State.validated_shav (t : State) (f : List Byte) : (t.validated f).shav = t.shav := by
  unfold State.validated; split <;> [rfl; (split <;> [rfl; (simp only []; split <;> rfl)])]
@[simp] theorem State.validated_dgv (t : State) (f : List Byte) : (t.validated f).dgv = t.dgv := by
  unfold State.validated; split <;> [rfl; (split <;> [rfl; (simp only []; split <;> rfl)])]
@[simp] theorem State.validated_dkv (t : State) (f : List Byte) : (t.validated f).dkv = t.dkv := by
  unfold State.validated; split <;> [rfl; (split <;> [rfl; (simp only []; split <;> rfl)])]
@[simp] theorem State.validated_rc4v (t : State) (f : List Byte) : (t.validated f).rc4v = t.rc4v := by
  unfold State.validated; split <;> [rfl; (split <;> [rfl; (simp only []; split <;> rfl)])]
@[simp] theorem State.validated_fault (t : State) (f : List Byte) : (t.validated f).fault = t.fault := by
  unfold State.validated; split <;> [rfl; (split <;> [rfl; (simp only []; split <;> rfl)])]
@[simp] theorem State.validated_flen (t : State) (f : List Byte) : (t.validated f).flen = t.flen := by
  unfold State.validated; split <;> [rfl; (split <;> [rfl; (simp only []; split <;> rfl)])]
@[simp] theorem State.validated_iter (t : State) (f : List Byte) : (t.validated f).iter = t.iter := by
  unfold State.validated; split <;> [rfl; (split <;> [rfl; (simp only []; split <;> rfl)])]
@[simp] theorem State.validated_sum8 (t : State) (f : List Byte) : (t.validated f).sum8 = t.sum8 := by
  unfold State.validated; split <;> [rfl; (split <;> [rfl; (simp only []; split <;> rfl)])]
@[simp] theorem State.validated_ksb (t : State) (f : List Byte) : (t.validated f).ksb = t.ksb := by
  unfold State.validated; split <;> [rfl; (split <;> [rfl; (simp only []; split <;> rfl)])]
@[simp] theorem State.validated_k1len (t : State) (f : List Byte) : (t.validated f).k1len = t.k1len := by
  unfold State.validated; split <;> [rfl; (split <;> [rfl; (simp only []; split <;> rfl)])]
@[simp] theorem State.validated_k2len (t : State) (f : List Byte) : (t.validated f).k2len = t.k2len := by
  unfold State.validated; split <;> [rfl; (split <;> [rfl; (simp only []; split <;> rfl)])]
@[simp] theorem State.validated_txcmd (t : State) (f : List Byte) : (t.validated f).txcmd = t.txcmd := by
  unfold State.validated; split <;> [rfl; (split <;> [rfl; (simp only []; split <;> rfl)])]
@[simp] theorem State.validated_txstat (t : State) (f : List Byte) : (t.validated f).txstat = t.txstat := by
  unfold State.validated; split <;> [rfl; (split <;> [rfl; (simp only []; split <;> rfl)])]
@[simp] theorem State.validated_txreq (t : State) (f : List Byte) : (t.validated f).txreq = t.txreq := by
  unfold State.validated; split <;> [rfl; (split <;> [rfl; (simp only []; split <;> rfl)])]
@[simp] theorem State.validated_txver (t : State) (f : List Byte) : (t.validated f).txver = t.txver := by
  unfold State.validated; split <;> [rfl; (split <;> [rfl; (simp only []; split <;> rfl)])]
@[simp] theorem State.validated_txkeyid (t : State) (f : List Byte) : (t.validated f).txkeyid = t.txkeyid := by
  unfold State.validated; split <;> [rfl; (split <;> [rfl; (simp only []; split <;> rfl)])]
@[simp] theorem State.validated_txctl (t : State) (f : List Byte) : (t.validated f).txctl = t.txctl := by
  unfold State.validated; split <;> [rfl; (split <;> [rfl; (simp only []; split <;> rfl)])]
@[simp] theorem State.validated_txxlen (t : State) (f : List Byte) : (t.validated f).txxlen = t.txxlen := by
  unfold State.validated; split <;> [rfl; (split <;> [rfl; (simp only []; split <;> rfl)])]
@[simp] theorem State.validated_sha (t : State) (f : List Byte) : (t.validated f).sha = t.sha := by
  unfold State.validated; split <;> [rfl; (split <;> [rfl; (simp only []; split <;> rfl)])]
@[simp] theorem State.validated_dg (t : State) (f : List Byte) : (t.validated f).dg = t.dg := by
  unfold State.validated; split <;> [rfl; (split <;> [rfl; (simp only []; split <;> rfl)])]
@[simp] theorem State.validated_dk (t : State) (f : List Byte) : (t.validated f).dk = t.dk := by
  unfold State.validated; split <;> [rfl; (split <;> [rfl; (simp only []; split <;> rfl)])]
@[simp] theorem State.validated_s (t : State) (f : List Byte) : (t.validated f).s = t.s := by
  unfold State.validated; split <;> [rfl; (split <;> [rfl; (simp only []; split <;> rfl)])]
@[simp] theorem State.validated_ri (t : State) (f : List Byte) : (t.validated f).ri = t.ri := by
  unfold State.validated; split <;> [rfl; (split <;> [rfl; (simp only []; split <;> rfl)])]
@[simp] theorem State.validated_rj (t : State) (f : List Byte) : (t.validated f).rj = t.rj := by
  unfold State.validated; split <;> [rfl; (split <;> [rfl; (simp only []; split <;> rfl)])]
@[simp] theorem State.validated_fb (t : State) (f : List Byte) : (t.validated f).fb = t.fb := by
  unfold State.validated; split <;> [rfl; (split <;> [rfl; (simp only []; split <;> rfl)])]
@[simp] theorem State.validated_k1b (t : State) (f : List Byte) : (t.validated f).k1b = t.k1b := by
  unfold State.validated; split <;> [rfl; (split <;> [rfl; (simp only []; split <;> rfl)])]
@[simp] theorem State.validated_k2b (t : State) (f : List Byte) : (t.validated f).k2b = t.k2b := by
  unfold State.validated; split <;> [rfl; (split <;> [rfl; (simp only []; split <;> rfl)])]
@[simp] theorem State.validated_txdev (t : State) (f : List Byte) : (t.validated f).txdev = t.txdev := by
  unfold State.validated; split <;> [rfl; (split <;> [rfl; (simp only []; split <;> rfl)])]
@[simp] theorem State.validated_txx (t : State) (f : List Byte) : (t.validated f).txx = t.txx := by
  unfold State.validated; split <;> [rfl; (split <;> [rfl; (simp only []; split <;> rfl)])]

/-- Reading a buffer that was just replaced. -/
@[simp] theorem State.buffer_setBuffer_self (t : State) (b : Buf) (m : Memory) : (t.setBuffer b m).buffer b = m := by
  cases b <;> rfl

/-- Replacing one buffer leaves the others. -/
theorem State.buffer_setBuffer_of_ne (t : State) {b b' : Buf} (m : Memory) (h : b' ≠ b) :
    (t.setBuffer b m).buffer b' = t.buffer b' := by
  cases b <;> cases b' <;> first | rfl | exact absurd rfl h

end Sys2Proof.Machine
end

