-- ==== Sys2Proof/Laws/Operands.lean ====
section
/-! SUPPORT. What the checks and the operand reads answer, and how an operation that may fault ends. -/

namespace Sys2Proof.Machine

/-- A sequence of checks answers exactly when each of its parts does. -/
theorem Check.bind_eq_ok {α β : Type} {x : Check α} {f : α → Check β} {b : β} :
    (x >>= f) = .ok b ↔ ∃ a, x = .ok a ∧ f a = .ok b := by
  cases x <;> simp [bind, Except.bind]

/-- A sequence of checks fails with the first fault. -/
theorem Check.bind_eq_error {α β : Type} {x : Check α} {f : α → Check β} {c : FaultCode} :
    (x >>= f) = .error c ↔ x = .error c ∨ ∃ a, x = .ok a ∧ f a = .error c := by
  cases x <;> simp [bind, Except.bind]

/-- Continuing after a check that passed. -/
@[simp] theorem Check.ok_bind {α β : Type} (a : α) (f : α → Check β) : ((Except.ok a : Check α) >>= f) = f a := rfl

/-- A failed check ends the operation. -/
@[simp] theorem Check.error_bind {α β : Type} (c : FaultCode) (f : α → Check β) :
    ((Except.error c : Check α) >>= f) = .error c := rfl

/-- Every operation that may fault ends in a next state: the one computed, or the old one with the fault recorded
(60_exceptions.md R294, R297). -/
theorem State.attempt_eq_next {s t : State} {r : Check State} :
    s.attempt r = .next t ↔ r = .ok t ∨ ∃ c, r = .error c ∧ t = s.raise c := by
  cases r <;> simp [State.attempt, eq_comm]

@[simp] theorem State.attempt_ok (s t : State) : s.attempt (.ok t) = .next t := rfl

@[simp] theorem State.attempt_error (s : State) (c : FaultCode) : s.attempt (.error c) = .next (s.raise c) := rfl

/-- A range operand answers bytes exactly when it passes the checks of 20_memory.md R70. -/
theorem State.fbRange_eq_ok {s : State} {off len : Nat} {bs : List Byte} :
    s.fbRange off len = .ok bs ↔ s.HasRange off len bs := by
  rw [State.fbRange]
  split
  · rename_i h
    simp only [reduceCtorEq, false_iff]
    rintro ⟨h1, h2, -⟩
    omega
  · rename_i h
    rw [Memory.memRead_eq_ok]
    constructor
    · rintro ⟨h1, h2⟩
      exact ⟨by omega, by omega, h1, h2⟩
    · rintro ⟨-, -, h1, h2⟩
      exact ⟨h1, h2⟩

/-- A range operand fails with F_RANGE when a bound is broken, else with F_UNDEF when a byte has no value. -/
theorem State.fbRange_eq_error {s : State} {off len : Nat} {c : FaultCode} :
    s.fbRange off len = .error c ↔
      (c = .range ∧ (s.cfg.fbSize < s.flen.toNat ∨ s.flen.toNat < off + len)) ∨
        (c = .undef ∧ s.flen.toNat ≤ s.cfg.fbSize ∧ off + len ≤ s.flen.toNat ∧ s.fb.Lacks off len) := by
  rw [State.fbRange]
  split
  · rename_i h
    constructor
    · intro e
      exact .inl ⟨by simpa [eq_comm] using e, h⟩
    · rintro (⟨rfl, -⟩ | ⟨-, h1, h2, -⟩)
      · rfl
      · omega
  · rename_i h
    rw [Memory.memRead_eq_error]
    constructor
    · rintro ⟨rfl, h2⟩
      exact .inr ⟨rfl, by omega, by omega, h2⟩
    · rintro (⟨-, h2⟩ | ⟨rfl, -, -, h2⟩)
      · omega
      · exact ⟨rfl, h2⟩

/-- The frame is read exactly when FB holds it. -/
theorem State.fbFrame_eq_ok {s : State} {f : List Byte} : s.fbFrame = .ok f ↔ s.HasFrame f := by
  rw [State.fbFrame, State.fbRange_eq_ok]
  constructor
  · rintro ⟨h1, -, h2, h3⟩
    exact ⟨h1, h2, h3⟩
  · rintro ⟨h1, h2, h3⟩
    exact ⟨h1, by omega, h2, h3⟩

/-- A put answers exactly when it stays inside FB_SIZE, and then writes its bytes and nothing else. -/
theorem State.fbPut_eq_ok {s t : State} {off : Nat} {bs : List Byte} :
    s.fbPut off bs = .ok t ↔ off + bs.length ≤ s.cfg.fbSize ∧ t = { s with fb := s.fb.writeRange off bs } := by
  rw [State.fbPut]
  split
  · rename_i h
    simp only [reduceCtorEq, false_iff]
    rintro ⟨h1, -⟩
    omega
  · rename_i h
    rw [Except.ok.injEq, eq_comm]
    exact ⟨fun e => ⟨by omega, e⟩, fun e => e.2⟩

/-- A put fails only with F_RANGE, exactly beyond FB_SIZE. -/
theorem State.fbPut_eq_error {s : State} {off : Nat} {bs : List Byte} {c : FaultCode} :
    s.fbPut off bs = .error c ↔ c = .range ∧ s.cfg.fbSize < off + bs.length := by
  rw [State.fbPut]
  split <;> simp_all [eq_comm]

/-- key1 is read exactly at a legal length with every byte loaded. -/
theorem State.readKey1_eq_ok {s : State} {k : List Byte} :
    s.readKey1 = .ok k ↔ s.k1len.toNat ≤ s.cfg.keyMax ∧ k.length = s.k1len.toNat ∧ s.k1b.Holds 0 k := by
  rw [State.readKey1]
  split
  · rename_i h
    simp only [reduceCtorEq, false_iff]
    rintro ⟨h1, -⟩
    omega
  · rename_i h
    rw [Memory.memRead_eq_ok]
    exact ⟨fun e => ⟨by omega, e⟩, fun e => e.2⟩

/-- key2 is read exactly at a legal length with every byte loaded. -/
theorem State.readKey2_eq_ok {s : State} {k : List Byte} :
    s.readKey2 = .ok k ↔ s.k2len.toNat ≤ s.cfg.keyMax ∧ k.length = s.k2len.toNat ∧ s.k2b.Holds 0 k := by
  rw [State.readKey2]
  split
  · rename_i h
    simp only [reduceCtorEq, false_iff]
    rintro ⟨h1, -⟩
    omega
  · rename_i h
    rw [Memory.memRead_eq_ok]
    exact ⟨fun e => ⟨by omega, e⟩, fun e => e.2⟩

/-- What key1's read fails with: F_KEYLEN before F_UNDEF. -/
theorem State.readKey1_eq_error {s : State} {c : FaultCode} :
    s.readKey1 = .error c ↔
      (c = .keyLen ∧ s.cfg.keyMax < s.k1len.toNat) ∨
        (c = .undef ∧ s.k1len.toNat ≤ s.cfg.keyMax ∧ s.k1b.Lacks 0 s.k1len.toNat) := by
  rw [State.readKey1]
  split
  · rename_i h
    constructor
    · intro e
      exact .inl ⟨by simpa [eq_comm] using e, h⟩
    · rintro (⟨rfl, -⟩ | ⟨-, h1, -⟩)
      · rfl
      · omega
  · rename_i h
    rw [Memory.memRead_eq_error]
    constructor
    · rintro ⟨rfl, h2⟩
      exact .inr ⟨rfl, by omega, h2⟩
    · rintro (⟨-, h2⟩ | ⟨rfl, -, h2⟩)
      · omega
      · exact ⟨rfl, h2⟩

/-- What key2's read fails with: F_KEYLEN before F_UNDEF. -/
theorem State.readKey2_eq_error {s : State} {c : FaultCode} :
    s.readKey2 = .error c ↔
      (c = .keyLen ∧ s.cfg.keyMax < s.k2len.toNat) ∨
        (c = .undef ∧ s.k2len.toNat ≤ s.cfg.keyMax ∧ s.k2b.Lacks 0 s.k2len.toNat) := by
  rw [State.readKey2]
  split
  · rename_i h
    constructor
    · intro e
      exact .inl ⟨by simpa [eq_comm] using e, h⟩
    · rintro (⟨rfl, -⟩ | ⟨-, h1, -⟩)
      · rfl
      · omega
  · rename_i h
    rw [Memory.memRead_eq_error]
    constructor
    · rintro ⟨rfl, h2⟩
      exact .inr ⟨rfl, by omega, h2⟩
    · rintro (⟨-, h2⟩ | ⟨rfl, -, h2⟩)
      · omega
      · exact ⟨rfl, h2⟩

/-- Both secrets are read exactly when both are loaded at legal lengths. -/
theorem State.readKeys_eq_ok {s : State} {k1 k2 : List Byte} : s.readKeys = .ok (k1, k2) ↔ s.HasKeys k1 k2 := by
  rw [State.readKeys]
  split
  · rename_i h
    simp only [reduceCtorEq, false_iff]
    rintro ⟨h1, h2, -⟩
    omega
  · rename_i h
    simp only [Check.bind_eq_ok, Memory.memRead_eq_ok, pure, Except.pure, Except.ok.injEq, Prod.mk.injEq]
    constructor
    · rintro ⟨a, ⟨h1, h2⟩, b, ⟨h3, h4⟩, rfl, rfl⟩
      exact ⟨by omega, by omega, h1, h3, h2, h4⟩
    · rintro ⟨-, -, h1, h3, h2, h4⟩
      exact ⟨k1, ⟨h1, h2⟩, k2, ⟨h3, h4⟩, rfl, rfl⟩

/-- What the read of both secrets fails with: F_KEYLEN for either before F_UNDEF for either. -/
theorem State.readKeys_eq_error {s : State} {c : FaultCode} :
    s.readKeys = .error c ↔
      (c = .keyLen ∧ (s.cfg.keyMax < s.k1len.toNat ∨ s.cfg.keyMax < s.k2len.toNat)) ∨
        (c = .undef ∧ s.k1len.toNat ≤ s.cfg.keyMax ∧ s.k2len.toNat ≤ s.cfg.keyMax ∧
          (s.k1b.Lacks 0 s.k1len.toNat ∨ s.k2b.Lacks 0 s.k2len.toNat)) := by
  rw [State.readKeys]
  split
  · rename_i h
    constructor
    · intro e
      exact .inl ⟨by simpa [eq_comm] using e, h⟩
    · rintro (⟨rfl, -⟩ | ⟨-, h1, h2, -⟩)
      · rfl
      · omega
  · rename_i h
    simp only [Check.bind_eq_error, Memory.memRead_eq_error, pure, Except.pure, reduceCtorEq, and_false, exists_false, or_false]
    constructor
    · rintro (⟨rfl, h1⟩ | ⟨-, -, rfl, h1⟩)
      · exact .inr ⟨rfl, by omega, by omega, .inl h1⟩
      · exact .inr ⟨rfl, by omega, by omega, .inr h1⟩
    · rintro (⟨-, h1⟩ | ⟨rfl, -, -, h1 | h1⟩)
      · omega
      · exact .inl ⟨rfl, h1⟩
      · rcases h2 : s.k1b.readRange 0 s.k1len.toNat with _ | bs
        · exact .inl ⟨rfl, Memory.readRange_eq_none.1 h2⟩
        · exact .inr ⟨bs, by rw [Memory.memRead, h2]; rfl, rfl, h1⟩

/-- The secrets are read when the operation derives a key, and left alone when it does not. -/
theorem State.readKeysIf_eq_ok {s : State} {d : Bool} {ks : Option (List Byte × List Byte)} :
    s.readKeysIf d = .ok ks ↔ (d = false ∧ ks = none) ∨ (d = true ∧ ∃ k1 k2, s.HasKeys k1 k2 ∧ ks = some (k1, k2)) := by
  cases d
  · simp [State.readKeysIf, eq_comm]
  · simp only [State.readKeysIf, if_true, Check.bind_eq_ok, pure, Except.pure, Except.ok.injEq, Prod.exists,
      State.readKeys_eq_ok, reduceCtorEq, false_and, true_and, false_or]
    exact exists_congr fun _ => exists_congr fun _ => and_congr_right fun _ => eq_comm

/-- An operation that derives no key fails on no key. -/
@[simp] theorem State.readKeysIf_false (s : State) : s.readKeysIf false = .ok none := rfl

/-- The open message is there exactly when SHAV is 1. -/
theorem State.openSha_eq_ok {s : State} {e : ShaEngine} : s.openSha = .ok e ↔ s.shav = true ∧ e = s.sha := by
  cases h : s.shav <;> simp [State.openSha, h, eq_comm]

/-- F_NOSHA exactly when SHAV is 0. -/
theorem State.openSha_eq_error {s : State} {c : FaultCode} : s.openSha = .error c ↔ c = .noSha ∧ s.shav = false := by
  cases h : s.shav <;> simp [State.openSha, h, eq_comm]

/-- The digest is there exactly when DGV is 1 and DG holds one. -/
theorem State.digest_eq_ok {s : State} {d : Vector Byte 32} : s.digest = .ok d ↔ s.dgv = true ∧ s.dg = some d := by
  rw [State.digest]
  split <;> simp_all

/-- F_NODG when DGV is 0; F_UNDEF only where DGV is 1 and DG holds nothing, which no run reaches (log 8). -/
theorem State.digest_eq_error {s : State} {c : FaultCode} :
    s.digest = .error c ↔ (c = .noDg ∧ s.dgv = false) ∨ (c = .undef ∧ s.dgv = true ∧ s.dg = none) := by
  cases h : s.dgv <;> simp [State.digest, h, eq_comm (a := c)]

/-- The derived key is there exactly when DKV is 1 and DK holds one. -/
theorem State.derivedKey_eq_ok {s : State} {d : Vector Byte 32} :
    s.derivedKey = .ok d ↔ s.dkv = true ∧ s.dk = some d := by
  rw [State.derivedKey]
  split <;> simp_all

/-- F_NOKEY when DKV is 0; F_UNDEF only where DKV is 1 and DK holds nothing, which no run reaches (log 8). -/
theorem State.derivedKey_eq_error {s : State} {c : FaultCode} :
    s.derivedKey = .error c ↔ (c = .noKey ∧ s.dkv = false) ∨ (c = .undef ∧ s.dkv = true ∧ s.dk = none) := by
  cases h : s.dkv <;> simp [State.derivedKey, h, eq_comm (a := c)]

/-- The encoder's byte arguments are read exactly when TXDEV and TXX hold them. -/
theorem State.readTx_eq_ok {s : State} {x : Nat} {dev extra : List Byte} :
    s.readTx x = .ok (dev, extra) ↔
      dev.length = 10 ∧ s.txdev.Holds 0 dev ∧ extra.length = x ∧ s.txx.Holds 0 extra := by
  simp only [State.readTx, Check.bind_eq_ok, Memory.memRead_eq_ok, pure, Except.pure, Except.ok.injEq, Prod.mk.injEq]
  constructor
  · rintro ⟨a, ⟨h1, h2⟩, b, ⟨h3, h4⟩, rfl, rfl⟩
    exact ⟨h1, h2, h3, h4⟩
  · rintro ⟨h1, h2, h3, h4⟩
    exact ⟨dev, ⟨h1, h2⟩, extra, ⟨h3, h4⟩, rfl, rfl⟩

/-- The read of the encoder's byte arguments fails only with F_UNDEF. -/
theorem State.readTx_eq_error {s : State} {x : Nat} {c : FaultCode} :
    s.readTx x = .error c ↔ c = .undef ∧ (s.txdev.Lacks 0 10 ∨ s.txx.Lacks 0 x) := by
  simp only [State.readTx, Check.bind_eq_error, Memory.memRead_eq_error, pure, Except.pure, reduceCtorEq, and_false,
    exists_false, or_false]
  constructor
  · rintro (⟨rfl, h1⟩ | ⟨-, -, rfl, h1⟩)
    · exact ⟨rfl, .inl h1⟩
    · exact ⟨rfl, .inr h1⟩
  · rintro ⟨rfl, h1 | h1⟩
    · exact .inl ⟨rfl, h1⟩
    · rcases h2 : s.txdev.readRange 0 10 with _ | bs
      · exact .inl ⟨rfl, Memory.readRange_eq_none.1 h2⟩
      · exact .inr ⟨bs, by rw [Memory.memRead, h2]; rfl, rfl, h1⟩

end Sys2Proof.Machine
end

