-- ==== Sys2Proof/Laws/Rc4.lean ====
section
/-! SUPPORT. What the RC4 operations can do: S stays a permutation, the keystream keeps the length of what it is laid over,
and nothing but S, RI, RJ and RC4V is written. -/

namespace Sys2Proof.Machine

/-- A swap permutes S. -/
theorem sboxSwap_perm (s : Vector Byte 256) (i j : Byte) : (sboxSwap s i j).toList.Perm s.toList := by
  have h := Vector.swap_perm (xs := s) i.isLt j.isLt
  exact (Vector.perm_iff_toList_perm.1 h)

/-- Each step of the key schedule leaves a permutation of the byte values. -/
theorem ksaSteps_perm (key : List Byte) (n : Nat) : (ksaSteps key n).1.toList.Perm sboxIdentity.toList := by
  induction n with
  | zero => exact List.Perm.refl _
  | succ n ih => exact (sboxSwap_perm _ _ _).trans ih

/-- A keystream step permutes S. -/
theorem Rc4.next_perm (c : Rc4) : c.next.2.s.toList.Perm c.s.toList := sboxSwap_perm _ _ _

/-- The keystream laid over bytes, one byte at a time. -/
theorem Rc4.xorBytes_cons (b : Byte) (bs : List Byte) (c : Rc4) :
    c.xorBytes (b :: bs) = ((b ^^^ c.next.1) :: (c.next.2.xorBytes bs).1, (c.next.2.xorBytes bs).2) := rfl

/-- The keystream keeps the length. -/
@[simp] theorem Rc4.xorBytes_length (bs : List Byte) (c : Rc4) : (c.xorBytes bs).1.length = bs.length := by
  induction bs generalizing c with
  | nil => rfl
  | cons b bs ih => rw [Rc4.xorBytes_cons, List.length_cons, ih, List.length_cons]

/-- The keystream permutes S. -/
theorem Rc4.xorBytes_perm (bs : List Byte) (c : Rc4) : (c.xorBytes bs).2.s.toList.Perm c.s.toList := by
  induction bs generalizing c with
  | nil => exact List.Perm.refl _
  | cons b bs ih => exact (ih _).trans c.next_perm

/-- The cipher state after a run of bytes is the state that many keystream bytes later. -/
theorem Rc4.xorBytes_state (bs : List Byte) (c : Rc4) : (c.xorBytes bs).2 = c.advance bs.length := by
  induction bs generalizing c with
  | nil => rfl
  | cons b bs ih => rw [Rc4.xorBytes_cons, ih, List.length_cons, Rc4.advance]

/-- The keyed state is there exactly when RC4V is 1 and S holds a value. -/
theorem State.cipher_eq_ok {s : State} {c : Rc4} :
    s.cipher = .ok c ↔ s.rc4v = true ∧ s.s = some c.s ∧ c.i = s.ri ∧ c.j = s.rj := by
  cases h : s.rc4v
  · simp [State.cipher, h]
  · simp only [State.cipher, h, if_true, Check.bind_eq_ok, defined_eq_ok, pure, Except.pure, Except.ok.injEq, true_and]
    constructor
    · rintro ⟨sb, hs, rfl⟩
      exact ⟨hs, rfl, rfl⟩
    · rintro ⟨hs, hi, hj⟩
      refine ⟨c.s, hs, ?_⟩
      rw [← hi, ← hj]

/-- F_NOKS when RC4V is 0; F_UNDEF only where RC4V is 1 and S holds nothing, which no run reaches (log 8). -/
theorem State.cipher_eq_error {s : State} {c : FaultCode} :
    s.cipher = .error c ↔ (c = .noKs ∧ s.rc4v = false) ∨ (c = .undef ∧ s.rc4v = true ∧ s.s = none) := by
  cases h : s.rc4v
  · simp [State.cipher, h, eq_comm (a := c)]
  · simp [State.cipher, h, Check.bind_eq_error, pure, Except.pure]

/-- Everything RC4.KSA's change does, if it answers: S is the schedule of DK, RI and RJ are 0, RC4V is 1. -/
theorem State.scheduleKey_eq_ok {s t : State} :
    s.scheduleKey = .ok t ↔
      ∃ k, s.dkv = true ∧ s.dk = some k ∧ t = { s with s := some (rc4Ksa k.toList), ri := 0, rj := 0, rc4v := true } := by
  simp only [State.scheduleKey, Check.bind_eq_ok, State.derivedKey_eq_ok, pure, Except.pure, Except.ok.injEq, and_assoc]
  exact exists_congr fun _ => and_congr_right fun _ => and_congr_right fun _ => eq_comm

/-- Everything the keystream does, if it answers: the bytes xored, and the cipher state that many bytes later. -/
theorem State.xorKeystream_eq_ok {s t : State} {bs out : List Byte} :
    s.xorKeystream bs = .ok (out, t) ↔
      ∃ c, s.cipher = .ok c ∧ out = (c.xorBytes bs).1 ∧ t = s.setCipher (c.advance bs.length) := by
  simp only [State.xorKeystream, Check.bind_eq_ok, pure, Except.pure, Except.ok.injEq, Prod.mk.injEq]
  exact exists_congr fun c => and_congr_right fun _ =>
    and_congr eq_comm (by rw [Rc4.xorBytes_state]; exact eq_comm)

end Sys2Proof.Machine
end

