-- ==== Sys2Proof/Laws/Sha.lean ====
section
/-! SUPPORT. What the SHA-256 engine's steps and the key derivation can do: they keep the engine ready, they never fail on a
ready engine, and they write nothing but the engine, the digest and the key. -/

namespace Sys2Proof.Machine

/-- The engine SHA.INIT leaves is ready and in canonical form. -/
theorem ShaEngine.init_ready : ShaEngine.init.Ready ∧ ShaEngine.init.BlockOk := by
  refine ⟨⟨rfl, fun i hi => absurd hi (Nat.not_lt_zero i)⟩, List.Pairwise.nil, fun c hc => absurd hc List.not_mem_nil⟩

/-- What one byte into the block does, if it answers: it leaves MLEN, keeps a value in H and keeps the block's form. -/
theorem ShaEngine.pad_cases {b : Byte} {e e' : ShaEngine} (h : e.pad b = .ok e') :
    e'.mlen = e.mlen ∧ e'.wrapped = e.wrapped ∧ e'.mb = e.mb.write e.mbn.val b ∧
      ((∃ hl : e.mbn.val + 1 < 64, e'.h = e.h ∧ e'.mbn = ⟨e.mbn.val + 1, hl⟩) ∨
        (e.mbn.val = 63 ∧ e'.mbn = 0 ∧
          ∃ c block, e.h = some c ∧ (e.mb.write e.mbn.val b).memRead 0 64 = .ok block ∧ e'.h = some (shaCompress c block))) := by
  unfold ShaEngine.pad at h
  simp only at h
  split at h
  · rename_i hl
    obtain rfl := Except.ok.inj h
    exact ⟨rfl, rfl, rfl, .inl ⟨hl, rfl, rfl⟩⟩
  · rename_i hl
    simp only [Check.bind_eq_ok, defined_eq_ok, pure, Except.pure, Except.ok.injEq] at h
    obtain ⟨c, hc, block, hb, rfl⟩ := h
    exact ⟨rfl, rfl, rfl, .inr ⟨by omega, rfl, c, block, hc, hb, rfl⟩⟩

/-- A byte into the block keeps the block's form. -/
theorem ShaEngine.pad_blockOk {b : Byte} {e e' : ShaEngine} (h : e.pad b = .ok e') (hb : e.BlockOk) : e'.BlockOk := by
  obtain ⟨-, -, hm, -⟩ := ShaEngine.pad_cases h
  unfold ShaEngine.BlockOk
  rw [hm]
  exact ⟨Memory.wf_write hb.1 _ _, Memory.within_write hb.2 e.mbn.isLt _⟩

/-- The bytes of the block filled so far, with one more written, hold values. -/
theorem ShaEngine.filled_write {e : ShaEngine} (h : e.Ready) (b : Byte) {i : Nat} (hi : i < e.mbn.val + 1) :
    ((e.mb.write e.mbn.val b).read i).isSome := by
  rw [Memory.read_write]
  split
  · rfl
  · exact h.2 i (by omega)

/-- A range of bytes that all hold values can be read. -/
theorem Memory.exists_memRead {m : Memory} {i n : Nat} (h : ∀ k < n, (m.read (i + k)).isSome) :
    ∃ bs, m.memRead i n = .ok bs := by
  rcases hr : m.memRead i n with c | bs
  · obtain ⟨-, k, hk, hn⟩ := Memory.memRead_eq_error.1 hr
    have := h k hk
    simp [hn] at this
  · exact ⟨bs, rfl⟩

/-- A ready engine takes a byte and stays ready. -/
theorem ShaEngine.pad_ready {e : ShaEngine} (h : e.Ready) (b : Byte) : ∃ e', e.pad b = .ok e' ∧ e'.Ready := by
  unfold ShaEngine.pad
  simp only
  split
  · rename_i hl
    exact ⟨_, rfl, h.1, fun i hi => ShaEngine.filled_write h b hi⟩
  · rename_i hl
    obtain ⟨c, hc⟩ := Option.isSome_iff_exists.1 h.1
    obtain ⟨block, hb⟩ := Memory.exists_memRead (m := e.mb.write e.mbn.val b) (i := 0) (n := 64) fun k hk => by
      rw [Nat.zero_add]
      exact ShaEngine.filled_write h b (by omega)
    rw [hc, hb]
    exact ⟨_, rfl, rfl, fun i hi => absurd hi (Nat.not_lt_zero i)⟩

/-- What the absorption of one byte does, if it answers: `pad` with MLEN counted. -/
theorem ShaEngine.absorb_eq_ok {b : Byte} {e e' : ShaEngine} :
    e.absorb b = .ok e' ↔
      ∃ p, e.pad b = .ok p ∧ e' = { p with mlen := e.mlen + 1, wrapped := e.wrapped || e.mlen + 1 == 0 } := by
  simp only [ShaEngine.absorb, Check.bind_eq_ok, pure, Except.pure, Except.ok.injEq]
  exact exists_congr fun _ => and_congr_right fun _ => eq_comm

/-- A ready engine absorbs a byte and stays ready. -/
theorem ShaEngine.absorb_ready {e : ShaEngine} (h : e.Ready) (b : Byte) : ∃ e', e.absorb b = .ok e' ∧ e'.Ready := by
  obtain ⟨p, hp, hr⟩ := ShaEngine.pad_ready h b
  exact ⟨_, ShaEngine.absorb_eq_ok.2 ⟨p, hp, rfl⟩, hr⟩

/-- Absorption keeps the block's form. -/
theorem ShaEngine.absorb_blockOk {b : Byte} {e e' : ShaEngine} (h : e.absorb b = .ok e') (hb : e.BlockOk) :
    e'.BlockOk := by
  obtain ⟨p, hp, rfl⟩ := ShaEngine.absorb_eq_ok.1 h
  exact (ShaEngine.pad_blockOk hp hb : p.BlockOk)

/-- A ready engine absorbs any bytes and stays ready. -/
theorem ShaEngine.absorbAll_ready {e : ShaEngine} (h : e.Ready) (bs : List Byte) :
    ∃ e', e.absorbAll bs = .ok e' ∧ e'.Ready := by
  induction bs generalizing e with
  | nil => exact ⟨e, rfl, h⟩
  | cons b bs ih =>
    obtain ⟨p, hp, hr⟩ := ShaEngine.absorb_ready h b
    obtain ⟨e', he, hr'⟩ := ih hr
    exact ⟨e', by rw [ShaEngine.absorbAll, hp]; exact he, hr'⟩

/-- Absorption of bytes keeps the block's form. -/
theorem ShaEngine.absorbAll_blockOk {bs : List Byte} {e e' : ShaEngine} (h : e.absorbAll bs = .ok e') (hb : e.BlockOk) :
    e'.BlockOk := by
  induction bs generalizing e with
  | nil => exact Except.ok.inj h ▸ hb
  | cons b bs ih =>
    rw [ShaEngine.absorbAll, Check.bind_eq_ok] at h
    obtain ⟨p, hp, h⟩ := h
    exact ih h (ShaEngine.absorb_blockOk hp hb)

/-- Absorbing two sequences one after the other is absorbing the one after the other. -/
theorem ShaEngine.absorbAll_append (xs ys : List Byte) (e : ShaEngine) :
    e.absorbAll (xs ++ ys) = (e.absorbAll xs >>= fun e' => e'.absorbAll ys) := by
  induction xs generalizing e with
  | nil => rfl
  | cons x xs ih =>
    rw [List.cons_append, ShaEngine.absorbAll, ShaEngine.absorbAll]
    cases e.absorb x with
    | error c => rfl
    | ok p => exact ih p

/-- The zero padding runs on a ready engine and leaves it ready. -/
theorem ShaEngine.padZeros_ready {e : ShaEngine} (h : e.Ready) (k : Nat) : ∃ e', e.padZeros k = .ok e' ∧ e'.Ready := by
  induction k generalizing e with
  | zero => exact ⟨e, rfl, h⟩
  | succ k ih =>
    rw [ShaEngine.padZeros]
    split
    · exact ⟨e, rfl, h⟩
    · obtain ⟨p, hp, hr⟩ := ShaEngine.pad_ready h 0x00
      obtain ⟨e', he, hr'⟩ := ih hr
      exact ⟨e', by rw [hp]; exact he, hr'⟩

/-- The zero padding keeps the block's form. -/
theorem ShaEngine.padZeros_blockOk {k : Nat} {e e' : ShaEngine} (h : e.padZeros k = .ok e') (hb : e.BlockOk) :
    e'.BlockOk := by
  induction k generalizing e with
  | zero => exact Except.ok.inj h ▸ hb
  | succ k ih =>
    rw [ShaEngine.padZeros] at h
    split at h
    · exact Except.ok.inj h ▸ hb
    · rw [Check.bind_eq_ok] at h
      obtain ⟨p, hp, h⟩ := h
      exact ih h (ShaEngine.pad_blockOk hp hb)

/-- Padding bytes go into a ready engine and leave it ready. -/
theorem ShaEngine.padAll_ready {e : ShaEngine} (h : e.Ready) (bs : List Byte) :
    ∃ e', e.padAll bs = .ok e' ∧ e'.Ready := by
  induction bs generalizing e with
  | nil => exact ⟨e, rfl, h⟩
  | cons b bs ih =>
    obtain ⟨p, hp, hr⟩ := ShaEngine.pad_ready h b
    obtain ⟨e', he, hr'⟩ := ih hr
    exact ⟨e', by rw [ShaEngine.padAll, hp]; exact he, hr'⟩

/-- Padding bytes keep the block's form. -/
theorem ShaEngine.padAll_blockOk {bs : List Byte} {e e' : ShaEngine} (h : e.padAll bs = .ok e') (hb : e.BlockOk) :
    e'.BlockOk := by
  induction bs generalizing e with
  | nil => exact Except.ok.inj h ▸ hb
  | cons b bs ih =>
    rw [ShaEngine.padAll, Check.bind_eq_ok] at h
    obtain ⟨p, hp, h⟩ := h
    exact ih h (ShaEngine.pad_blockOk hp hb)

/-- The closing padding runs on a ready engine and leaves it ready. -/
theorem ShaEngine.padToEnd_ready {e : ShaEngine} (h : e.Ready) : ∃ e', e.padToEnd = .ok e' ∧ e'.Ready := by
  obtain ⟨e1, h1, r1⟩ := ShaEngine.pad_ready h 0x80
  obtain ⟨e2, h2, r2⟩ := ShaEngine.padZeros_ready r1 64
  obtain ⟨e3, h3, r3⟩ := ShaEngine.padAll_ready r2 (be64 (8 * e.mlen))
  exact ⟨e3, by simp only [ShaEngine.padToEnd, h1, h2, Check.ok_bind, h3], r3⟩

/-- The closing padding keeps the block's form. -/
theorem ShaEngine.padToEnd_blockOk {e e' : ShaEngine} (h : e.padToEnd = .ok e') (hb : e.BlockOk) : e'.BlockOk := by
  simp only [ShaEngine.padToEnd, Check.bind_eq_ok] at h
  obtain ⟨e1, h1, e2, h2, h3⟩ := h
  exact ShaEngine.padAll_blockOk h3 (ShaEngine.padZeros_blockOk h2 (ShaEngine.pad_blockOk h1 hb))

/-- Everything `finish()` can do, if it answers: the engine's padding, DG, DGV and SHAV, and one free value more only for a
message that is too long. -/
theorem State.finishSha_cases {s t : State} (h : s.finishSha = .ok t) :
    ∃ e c, s.sha.padToEnd = .ok e ∧ e.h = some c ∧
      ((s.sha.tooLong = false ∧ t = { s with sha := e, dg := some (digestOf c), dgv := true, shav := false }) ∨
        (s.sha.tooLong = true ∧
          t = { s with sha := e, dg := some (Config.freeDigest s.freeCount), freeCount := s.freeCount + 1, dgv := true, shav := false })) := by
  simp only [State.finishSha, Check.bind_eq_ok, defined_eq_ok] at h
  obtain ⟨e, he, c, hc, h⟩ := h
  refine ⟨e, c, he, hc, ?_⟩
  split at h
  · rename_i hl
    exact .inr ⟨hl, (Except.ok.inj h).symm⟩
  · rename_i hl
    exact .inl ⟨by simpa using hl, (Except.ok.inj h).symm⟩

/-- What one hash, a round of them or the derivation leaves as it was: everything but the engine, the digest, the key, their
flags and the count of free values. -/
abbrev State.OnlyShaChanged (s t : State) : Prop :=
  t = { s with sha := t.sha, shav := t.shav, dg := t.dg, dgv := t.dgv, dk := t.dk, dkv := t.dkv, freeCount := t.freeCount }

theorem State.OnlyShaChanged.trans {s t u : State} (h1 : s.OnlyShaChanged t) (h2 : t.OnlyShaChanged u) :
    s.OnlyShaChanged u := by
  unfold State.OnlyShaChanged at *
  rw [h2, h1]

/-- Everything the frame of `finish()` says at once. -/
theorem State.finishSha_frame {s t : State} (h : s.finishSha = .ok t) :
    s.OnlyShaChanged t ∧ t.dgv = true ∧ t.dg.isSome ∧ t.shav = false ∧ t.dk = s.dk ∧ t.dkv = s.dkv := by
  obtain ⟨e, c, -, -, ⟨-, rfl⟩ | ⟨-, rfl⟩⟩ := State.finishSha_cases h <;> exact ⟨rfl, rfl, rfl, rfl, rfl, rfl⟩

/-- `finish()` answers on a ready engine. -/
theorem State.finishSha_ready {s : State} (h : s.sha.Ready) : ∃ t, s.finishSha = .ok t := by
  obtain ⟨e, he, hr⟩ := ShaEngine.padToEnd_ready h
  obtain ⟨c, hc⟩ := Option.isSome_iff_exists.1 hr.1
  simp only [State.finishSha, he, hc, Check.ok_bind]
  simp only [defined, Check.ok_bind]
  split <;> exact ⟨_, rfl⟩

/-- `finish()` keeps the block's form. -/
theorem State.finishSha_blockOk {s t : State} (h : s.finishSha = .ok t) (hb : s.sha.BlockOk) : t.sha.BlockOk := by
  obtain ⟨e, c, he, -, ⟨-, rfl⟩ | ⟨-, rfl⟩⟩ := State.finishSha_cases h <;> exact ShaEngine.padToEnd_blockOk he hb

/-- Everything the absorption of bytes does, if it answers: the engine absorbs them. -/
theorem State.absorbSha_eq_ok {s t : State} {bs : List Byte} :
    s.absorbSha bs = .ok t ↔ ∃ e, s.sha.absorbAll bs = .ok e ∧ t = { s with sha := e } := by
  simp only [State.absorbSha, Check.bind_eq_ok, pure, Except.pure, Except.ok.injEq]
  exact exists_congr fun _ => and_congr_right fun _ => eq_comm

/-- One hash always answers, and leaves a digest, no open message and the engine in its form. -/
theorem State.hashMessage_spec (s : State) (m : List Byte) :
    ∃ t, s.hashMessage m = .ok t ∧ s.OnlyShaChanged t ∧ t.dgv = true ∧ t.dg.isSome ∧ t.shav = false ∧
      t.dk = s.dk ∧ t.dkv = s.dkv ∧ t.sha.BlockOk := by
  obtain ⟨e, he, hr⟩ := ShaEngine.absorbAll_ready ShaEngine.init_ready.1 m
  obtain ⟨t, ht⟩ := State.finishSha_ready (s := { s.initSha with sha := e }) hr
  have hm : s.hashMessage m = .ok t := by
    simp only [State.hashMessage, Check.bind_eq_ok]
    exact ⟨_, State.absorbSha_eq_ok.2 ⟨e, he, rfl⟩, ht⟩
  obtain ⟨h1, h2, h3, h4, h5, h6⟩ := State.finishSha_frame ht
  refine ⟨t, hm, ?_, h2, h3, h4, h5, h6, State.finishSha_blockOk ht (ShaEngine.absorbAll_blockOk he ShaEngine.init_ready.2)⟩
  unfold State.OnlyShaChanged at *
  rw [h1]
  rfl

/-- One hash of the derivation leaves the engine as `finish()` does after its message (42_sha256_kdf.md R165, R179). -/
theorem State.hashMessage_hasFinished {s t : State} {m : List Byte} (h : s.hashMessage m = .ok t) : t.sha.HasFinished m := by
  obtain ⟨u, hu, ht⟩ := Check.bind_eq_ok.1 h
  obtain ⟨e, he, rfl⟩ := State.absorbSha_eq_ok.1 hu
  obtain ⟨e', c, hp, -, ⟨-, rfl⟩ | ⟨-, rfl⟩⟩ := State.finishSha_cases ht
  exacts [⟨e, he, hp⟩, ⟨e, he, hp⟩]

/-- The chaining rounds always answer from a state that holds a digest, and leave one. -/
theorem State.kdfRounds_spec (k1 k2 : List Byte) (n : Nat) {s : State} (hv : s.dgv = true) (hd : s.dg.isSome)
    (hs : s.shav = false) (hb : s.sha.BlockOk) :
    ∃ t, State.kdfRounds k1 k2 n s = .ok t ∧ s.OnlyShaChanged t ∧ t.dgv = true ∧ t.dg.isSome ∧ t.shav = false ∧
      t.dk = s.dk ∧ t.dkv = s.dkv ∧ t.sha.BlockOk := by
  induction n generalizing s with
  | zero => exact ⟨s, rfl, rfl, hv, hd, hs, rfl, rfl, hb⟩
  | succ n ih =>
    obtain ⟨d, hd'⟩ := Option.isSome_iff_exists.1 hd
    obtain ⟨t, ht, f1, v1, d1, s1, k1', kv1, b1⟩ := s.hashMessage_spec (d.toList ++ k1 ++ k2)
    obtain ⟨u, hu, f2, v2, d2, s2, k2', kv2, b2⟩ := ih v1 d1 s1 b1
    refine ⟨u, ?_, f1.trans f2, v2, d2, s2, k2'.trans k1', kv2.trans kv1, b2⟩
    rw [State.kdfRounds, Check.bind_eq_ok]
    exact ⟨d, State.digest_eq_ok.2 ⟨hv, hd'⟩, by rw [ht]; exact hu⟩

/-- Everything KDF.LATCH's change does, if it answers: DK is DG. -/
theorem State.latchKey_eq_ok {s t : State} :
    s.latchKey = .ok t ↔ ∃ d, s.dgv = true ∧ s.dg = some d ∧ t = { s with dk := some d, dkv := true } := by
  simp only [State.latchKey, Check.bind_eq_ok, State.digest_eq_ok, pure, Except.pure, Except.ok.injEq, and_assoc]
  exact exists_congr fun _ => and_congr_right fun _ => and_congr_right fun _ => eq_comm

/-- The derivation always answers; it leaves DK = DG with both flags 1, no open message, and changes nothing else. -/
theorem State.deriveKeyInto_spec (k1 k2 : List Byte) (s : State) :
    ∃ t, s.deriveKeyInto k1 k2 = .ok t ∧ s.OnlyShaChanged t ∧ t.dgv = true ∧ t.dkv = true ∧ t.dk = t.dg ∧ t.dk.isSome ∧
      t.shav = false ∧ t.sha.BlockOk := by
  obtain ⟨t, ht, f1, v1, d1, s1, -, -, b1⟩ := s.hashMessage_spec (k1 ++ k2)
  obtain ⟨u, hu, f2, v2, d2, s2, -, -, b2⟩ := State.kdfRounds_spec k1 k2 s.iter.toNat v1 d1 s1 b1
  obtain ⟨d, hd⟩ := Option.isSome_iff_exists.1 d2
  refine ⟨{ u with dk := some d, dkv := true }, ?_, ?_, v2, rfl, hd.symm, rfl, s2, b2⟩
  · simp only [State.deriveKeyInto, ht, hu, Check.ok_bind]
    exact State.latchKey_eq_ok.2 ⟨d, v2, hd, rfl⟩
  · have f := f1.trans f2
    unfold State.OnlyShaChanged at *
    rw [f]

end Sys2Proof.Machine
end

