-- ==== Sys2Proof/Laws/Frame.lean ====
section
/-! SUPPORT. Lengths in a frame, and what the shared steps of the frame operations can do. -/

namespace Sys2Proof.Machine

@[simp] theorem slice_length (f : List Byte) (a b : Nat) : (slice f a b).length = min (b - a) (f.length - a) := by
  simp [slice]

/-- The segment of a frame has n - 24 bytes (30_encoding.md R80). -/
theorem segmentOf_length (f : List Byte) : (segmentOf f).length = f.length - 24 := by
  simp only [segmentOf, slice_length, fixedLen, footLen]
  omega

/-- A reply's segment has the payload and four bytes more (45_frame_tx.md R243). -/
theorem replySegment_length (r : ReplyArgs) : (replySegment r).length = r.extra.length + 4 := by
  simp only [replySegment, replyBody, List.length_append, List.length_cons, List.length_nil]
  omega

/-- A reply is 28 bytes and the payload, for a device id of ten bytes (45_frame_tx.md R243). -/
theorem replyFrame_length {r : ReplyArgs} {seg : List Byte} (hd : r.deviceId.length = 10)
    (hs : seg.length = r.extra.length + 4) : (replyFrame r seg).length = 28 + r.extra.length := by
  simp only [replyFrame, replyPrefix, replyHeader, replyPlain, List.length_append, List.length_cons, List.length_nil,
    be16_length, hd, hs]
  omega

/-- What the cipher step leaves as it was: everything but the engine, the digest, the key, the cipher state, their flags and
the count of free values. -/
abbrev State.OnlyCipherChanged (s t : State) : Prop :=
  t = { s with
    sha := t.sha, shav := t.shav, dg := t.dg, dgv := t.dgv, dk := t.dk, dkv := t.dkv, freeCount := t.freeCount,
    s := t.s, ri := t.ri, rj := t.rj, rc4v := t.rc4v }

/-- The cipher step of the frame operations always answers: the segment under the keystream of the key just derived, from
keystream byte 0, and nothing changed but the engines (43_rc4.md R199). -/
theorem State.deriveAndCrypt_spec (k1 k2 seg : List Byte) (s : State) :
    ∃ key t u, s.deriveKeyInto k1 k2 = .ok t ∧ t.dk = some key ∧
      s.deriveAndCrypt k1 k2 seg = .ok (rc4Crypt key.toList seg, u) ∧
      u = { t with
        s := some ((Rc4.ofKey key.toList).advance seg.length).s
        ri := ((Rc4.ofKey key.toList).advance seg.length).i
        rj := ((Rc4.ofKey key.toList).advance seg.length).j
        rc4v := true } ∧
      s.OnlyCipherChanged u := by
  obtain ⟨t, ht, hf, -, hv, -, hk, -, -⟩ := s.deriveKeyInto_spec k1 k2
  obtain ⟨key, hkey⟩ := Option.isSome_iff_exists.1 hk
  refine ⟨key, t, _, ht, hkey, ?_, rfl, ?_⟩
  · simp only [State.deriveAndCrypt, ht, Check.ok_bind, Check.bind_eq_ok]
    refine ⟨_, State.scheduleKey_eq_ok.2 ⟨key, hv, hkey, rfl⟩, State.xorKeystream_eq_ok.2 ⟨Rc4.ofKey key.toList, ?_, rfl, rfl⟩⟩
    exact State.cipher_eq_ok.2 ⟨rfl, rfl, rfl, rfl⟩
  · unfold State.OnlyCipherChanged
    unfold State.OnlyShaChanged at hf
    rw [hf]

/-- Everything FRM.VALIDATE's change can do: a reject, or the CRC computed and compared (44_frame_rx.md R212). -/
theorem State.validated_cases (f : List Byte) (s : State) :
    (f.length < 3 ∧ s.validated f = { s with valid := false, err := .reject .tooShort }) ∨
      (3 ≤ f.length ∧ byteAt f (f.length - 1) ≠ endMarker ∧
        s.validated f = { s with valid := false, err := .reject .endMarker }) ∨
      (3 ≤ f.length ∧ byteAt f (f.length - 1) = endMarker ∧ crc16Of (coveredBytes f) ≠ crcField f ∧
        s.validated f = { s with crc16 := crc16Of (coveredBytes f), valid := false, err := .reject .crc16 }) ∨
      (3 ≤ f.length ∧ byteAt f (f.length - 1) = endMarker ∧ crc16Of (coveredBytes f) = crcField f ∧
        s.validated f = { s with crc16 := crc16Of (coveredBytes f), valid := true, err := .ok }) := by
  unfold State.validated
  by_cases h1 : f.length < 3
  · exact .inl ⟨h1, by rw [if_pos h1]⟩
  · by_cases h2 : byteAt f (f.length - 1) = endMarker
    · by_cases h3 : crc16Of (coveredBytes f) = crcField f
      · exact .inr (.inr (.inr ⟨by omega, h2, h3, by simp [h1, h2, h3]⟩))
      · exact .inr (.inr (.inl ⟨by omega, h2, h3, by simp [h1, h2, h3]⟩))
    · exact .inr (.inl ⟨by omega, h2, by simp [h1, h2]⟩)

/-- Everything FRM.DECODE's change can do on a clear frame or without secrets: a reject, or the report on the segment. -/
theorem State.decoded_none_cases (f : List Byte) (s : State) :
    (f.length < 21 ∧ s.decoded f none = .ok { s with crc8ok := false, rxenc := false, err := .reject .decodeShort }) ∨
      (21 ≤ f.length ∧ f.length < 26 ∧
        s.decoded f none = .ok { s with crc8ok := false, rxenc := false, err := .reject .segmentShort }) ∨
      (26 ≤ f.length ∧ s.decoded f none = .ok ({ s with rxenc := false }.reportSegment (segmentOf f))) := by
  unfold State.decoded
  by_cases h1 : f.length < 21
  · exact .inl ⟨h1, by rw [if_pos h1]⟩
  · by_cases h2 : f.length < 26
    · exact .inr (.inl ⟨by omega, h2, by rw [if_neg h1, if_pos h2]⟩)
    · exact .inr (.inr ⟨by omega, by rw [if_neg h1, if_neg h2]⟩)

/-- What FRM.DECODE's change does on a frame of at least 26 bytes with the secrets read: the segment decrypted in place and
the report on it (44_frame_rx.md R216). -/
theorem State.decoded_some_eq (f k1 k2 : List Byte) (s : State) (h : minFrame ≤ f.length) :
    ∃ seg u, { s with rxenc := true }.deriveAndCrypt k1 k2 (segmentOf f) = .ok (seg, u) ∧
      s.decoded f (some (k1, k2)) = .ok ({ u with fb := u.fb.writeRange fixedLen seg }.reportSegment seg) := by
  obtain ⟨key, t, u, -, -, hu, -, -⟩ := State.deriveAndCrypt_spec k1 k2 (segmentOf f) { s with rxenc := true }
  refine ⟨_, u, hu, ?_⟩
  unfold State.decoded
  have h1 : ¬ f.length < 21 := by
    have : 26 ≤ f.length := h
    omega
  have h2 : ¬ f.length < minFrame := by omega
  simp only [h1, h2, if_false, hu, Check.ok_bind]
  rfl

/-- What FRM.ENCODE's change does: the sum of the clear body, the cipher step when the secrets are given, and the frame
stored (45_frame_tx.md R245). -/
theorem State.encoded_cases (r : ReplyArgs) (keys : Option (List Byte × List Byte)) (s : State) :
    (keys = none ∧
        s.encoded r keys = .ok ({ s with sum8 := sum8Of (replyBody r) }.storeReply r (replySegment r))) ∨
      ∃ k1 k2 seg u, keys = some (k1, k2) ∧
        { s with sum8 := sum8Of (replyBody r) }.deriveAndCrypt k1 k2 (replySegment r) = .ok (seg, u) ∧
        s.encoded r keys = .ok (u.storeReply r seg) := by
  rcases keys with _ | ⟨k1, k2⟩
  · exact .inl ⟨rfl, rfl⟩
  · obtain ⟨key, t, u, -, -, hu, -, -⟩ :=
      State.deriveAndCrypt_spec k1 k2 (replySegment r) { s with sum8 := sum8Of (replyBody r) }
    refine .inr ⟨k1, k2, _, u, rfl, hu, ?_⟩
    simp only [State.encoded, hu, Check.ok_bind]
    rfl

end Sys2Proof.Machine
end

