-- ==== Sys2Proof/Laws/HostPort.lean ====
section
/-! SUPPORT. The window's address map read both ways, what a host access can do, and what one step is. -/

namespace Sys2Proof.Machine

/-- An address is a register's exactly when it is that register's address (10_state.md R45). -/
theorem regAt_eq_some {a : Nat} {r : Reg} : regAt a = some r ↔ a = r.address := by
  constructor
  · intro h
    have h' := List.find?_some h
    exact (beq_iff_eq.1 h').symm
  · rintro rfl
    cases r with
    | dgw k => revert k; decide
    | dkw k => revert k; decide
    | _ => rfl

/-- No register has the address exactly when no register's address is it. -/
theorem regAt_eq_none {a : Nat} : regAt a = none ↔ ∀ r : Reg, r.address ≠ a := by
  constructor
  · intro h r e
    rw [regAt_eq_some.2 e.symm] at h
    cases h
  · intro h
    rcases hr : regAt a with _ | r
    · rfl
    · exact absurd (regAt_eq_some.1 hr).symm (h r)

/-- Every buffer stands in the map. -/
theorem mem_allBufs (b : Buf) : b ∈ allBufs := by cases b <;> decide

/-- The buffers' windows do not meet (10_state.md R45; 00_scope.md R9, R10). -/
theorem Buf.windows_disjoint {c : Config} {a : Nat} {b b' : Buf} (h1 : b.base ≤ a) (h2 : a < b.base + b.size c)
    (h3 : b'.base ≤ a) (h4 : a < b'.base + b'.size c) : b = b' := by
  have hk := c.keyMax_le
  cases b <;> cases b' <;> first | rfl | (simp only [Buf.base, Buf.size] at h1 h2 h3 h4; omega)

/-- An address is a buffer's exactly when it lies in that buffer's window, within its size (20_memory.md R63). -/
theorem bufAt_eq_some {c : Config} {a : Nat} {b : Buf} :
    bufAt c a = some b ↔ b.base ≤ a ∧ a < b.base + b.size c := by
  constructor
  · intro h
    simpa using List.find?_some h
  · rintro ⟨h1, h2⟩
    rcases hb : bufAt c a with _ | b'
    · have := List.find?_eq_none.1 hb b (mem_allBufs b)
      simp only [Bool.and_eq_true, decide_eq_true_eq, not_and] at this
      exact absurd h2 (this h1)
    · have h := List.find?_some hb
      simp only [Bool.and_eq_true, decide_eq_true_eq] at h
      rw [Buf.windows_disjoint h1 h2 h.1 h.2]

/-- No buffer has the address exactly when it lies in no window. -/
theorem bufAt_eq_none {c : Config} {a : Nat} :
    bufAt c a = none ↔ ∀ b : Buf, ¬ (b.base ≤ a ∧ a < b.base + b.size c) := by
  constructor
  · intro h b hb
    rw [bufAt_eq_some.2 hb] at h
    cases h
  · intro h
    rcases hb : bufAt c a with _ | b
    · rfl
    · exact absurd (bufAt_eq_some.1 hb) (h b)

/-- Everything a 32-bit read can do: refuse, answer a value, or answer a free value and count it. -/
theorem State.hostRead32_cases (s : State) (a : Nat) :
    (regAt a = none ∧ s.hostRead32 a = s.refuseAccess) ∨
      (∃ r v, a = r.address ∧ s.readReg r = some v ∧ s.hostRead32 a = s.answer (.data32 v)) ∨
      (∃ r, a = r.address ∧ s.readReg r = none ∧
        s.hostRead32 a = (s.answer (.data32 (Config.freeWord s.freeCount a))).takeFree) := by
  rcases hr : regAt a with _ | r
  · exact .inl ⟨rfl, by simp [State.hostRead32, hr]⟩
  · rcases hv : s.readReg r with _ | v
    · exact .inr (.inr ⟨r, regAt_eq_some.1 hr, hv, by simp [State.hostRead32, hr, hv]⟩)
    · exact .inr (.inl ⟨r, v, regAt_eq_some.1 hr, hv, by simp [State.hostRead32, hr, hv]⟩)

/-- Everything an 8-bit read can do: refuse, answer the byte, or answer a free value and count it. -/
theorem State.hostRead8_cases (s : State) (a : Nat) :
    (bufAt s.cfg a = none ∧ s.hostRead8 a = s.refuseAccess) ∨
      (∃ b v, bufAt s.cfg a = some b ∧ (s.buffer b).read (a - b.base) = some v ∧ s.hostRead8 a = s.answer (.data8 v)) ∨
      (∃ b, bufAt s.cfg a = some b ∧ (s.buffer b).read (a - b.base) = none ∧
        s.hostRead8 a = (s.answer (.data8 (Config.freeByte s.freeCount a))).takeFree) := by
  rcases hb : bufAt s.cfg a with _ | b
  · exact .inl ⟨rfl, by simp [State.hostRead8, hb]⟩
  · rcases hv : (s.buffer b).read (a - b.base) with _ | v
    · exact .inr (.inr ⟨b, rfl, hv, by simp [State.hostRead8, hb, hv]⟩)
    · exact .inr (.inl ⟨b, v, rfl, hv, by simp [State.hostRead8, hb, hv]⟩)

/-- Everything an 8-bit write can do: refuse, or write the one byte. -/
theorem State.hostWrite8_cases (s : State) (a : Nat) (v : Byte) :
    (bufAt s.cfg a = none ∧ s.hostWrite8 a v = s.refuseAccess) ∨
      (∃ b, bufAt s.cfg a = some b ∧
        s.hostWrite8 a v = (s.setBuffer b ((s.buffer b).write (a - b.base) v)).answer .done) := by
  rcases hb : bufAt s.cfg a with _ | b
  · exact .inl ⟨rfl, by simp [State.hostWrite8, hb]⟩
  · exact .inr ⟨b, rfl, by simp [State.hostWrite8, hb]⟩

/-- Everything a 32-bit write can do: refuse, run the command, or store into one register. -/
theorem State.hostWrite32_cases (s : State) (a : Nat) (v : Word) :
    (regAt a = none ∧ s.hostWrite32 a v = .next s.refuseAccess) ∨
      (a = 0 ∧ s.hostWrite32 a v = (s.answer .done).command v) ∨
      (∃ r, r ≠ .cmd ∧ a = r.address ∧ s.hostWrite32 a v = .next ((s.writeReg r v).answer .done)) := by
  rcases hr : regAt a with _ | r
  · exact .inl ⟨rfl, by simp [State.hostWrite32, hr]⟩
  · by_cases hc : r = .cmd
    · subst hc
      exact .inr (.inl ⟨regAt_eq_some.1 hr, by simp [State.hostWrite32, hr]⟩)
    · refine .inr (.inr ⟨r, hc, regAt_eq_some.1 hr, ?_⟩)
      unfold State.hostWrite32
      rw [hr]
      cases r <;> first | rfl | exact absurd rfl hc

/-- A step with no event to come changes nothing. -/
theorem step_idle {s : State} (h : s.host = []) : step s = .next s := by
  unfold step
  rw [h]

/-- A step takes the next event and performs it. -/
theorem step_event {s : State} {e : HostEvent} {es : List HostEvent} (h : s.host = e :: es) :
    step s = { s with host := es }.perform e := by
  unfold step
  rw [h]

/-- Running no operation. -/
@[simp] theorem execAll_nil (s : State) : execAll [] s = .next s := rfl

/-- Running an operation that completes, then the rest. -/
theorem execAll_cons {i : Instr} {is : List Instr} {s t : State} (h : exec i s = .next t) :
    execAll (i :: is) s = execAll is t := by
  rw [execAll, h]

end Sys2Proof.Machine
end

