-- ==== Sys2Proof/Laws/PerInstr.lean ====
section
/-! SUPPORT. Statements about every instruction as syntax, one lemma per constructor. -/

namespace Sys2Proof.Laws

/-- The word an instruction encodes to carries its row's OP, and its two operand fields (30_encoding.md R100, R104). -/
def EncodedFields.Statement (i : Instr) : Prop :=
  opField (encode i) = i.row.op ∧ aField (encode i) = i.fieldA ∧ bField (encode i) = i.fieldB

/-- The instruction's row stands in the opcode map (30_encoding.md R104). -/
def RowListed.Statement (i : Instr) : Prop := i.row ∈ opcodeMap

theorem EncodedFields.nop : EncodedFields.Statement .nop :=
  ⟨opField_commandWord _ _ _, aField_commandWord _ _ _, bField_commandWord _ _ _⟩

theorem EncodedFields.srst : EncodedFields.Statement .srst :=
  ⟨opField_commandWord _ _ _, aField_commandWord _ _ _, bField_commandWord _ _ _⟩

theorem EncodedFields.crc16Init : EncodedFields.Statement .crc16Init :=
  ⟨opField_commandWord _ _ _, aField_commandWord _ _ _, bField_commandWord _ _ _⟩

theorem EncodedFields.crc16Updb (imm : Byte) : EncodedFields.Statement (.crc16Updb imm) :=
  ⟨opField_commandWord _ _ _, aField_commandWord _ _ _, bField_commandWord _ _ _⟩

theorem EncodedFields.crc16Updr (off len : Nat) : EncodedFields.Statement (.crc16Updr off len) :=
  ⟨opField_commandWord _ _ _, aField_commandWord _ _ _, bField_commandWord _ _ _⟩

theorem EncodedFields.crc16Put (off : Nat) : EncodedFields.Statement (.crc16Put off) :=
  ⟨opField_commandWord _ _ _, aField_commandWord _ _ _, bField_commandWord _ _ _⟩

theorem EncodedFields.sum8Init : EncodedFields.Statement .sum8Init :=
  ⟨opField_commandWord _ _ _, aField_commandWord _ _ _, bField_commandWord _ _ _⟩

theorem EncodedFields.sum8Updb (imm : Byte) : EncodedFields.Statement (.sum8Updb imm) :=
  ⟨opField_commandWord _ _ _, aField_commandWord _ _ _, bField_commandWord _ _ _⟩

theorem EncodedFields.sum8Updr (off len : Nat) : EncodedFields.Statement (.sum8Updr off len) :=
  ⟨opField_commandWord _ _ _, aField_commandWord _ _ _, bField_commandWord _ _ _⟩

theorem EncodedFields.sum8Put (off : Nat) : EncodedFields.Statement (.sum8Put off) :=
  ⟨opField_commandWord _ _ _, aField_commandWord _ _ _, bField_commandWord _ _ _⟩

theorem EncodedFields.shaInit : EncodedFields.Statement .shaInit :=
  ⟨opField_commandWord _ _ _, aField_commandWord _ _ _, bField_commandWord _ _ _⟩

theorem EncodedFields.shaUpdb (imm : Byte) : EncodedFields.Statement (.shaUpdb imm) :=
  ⟨opField_commandWord _ _ _, aField_commandWord _ _ _, bField_commandWord _ _ _⟩

theorem EncodedFields.shaUpdr (off len : Nat) : EncodedFields.Statement (.shaUpdr off len) :=
  ⟨opField_commandWord _ _ _, aField_commandWord _ _ _, bField_commandWord _ _ _⟩

theorem EncodedFields.shaUpdk1 : EncodedFields.Statement .shaUpdk1 :=
  ⟨opField_commandWord _ _ _, aField_commandWord _ _ _, bField_commandWord _ _ _⟩

theorem EncodedFields.shaUpdk2 : EncodedFields.Statement .shaUpdk2 :=
  ⟨opField_commandWord _ _ _, aField_commandWord _ _ _, bField_commandWord _ _ _⟩

theorem EncodedFields.shaUpddg : EncodedFields.Statement .shaUpddg :=
  ⟨opField_commandWord _ _ _, aField_commandWord _ _ _, bField_commandWord _ _ _⟩

theorem EncodedFields.shaFin : EncodedFields.Statement .shaFin :=
  ⟨opField_commandWord _ _ _, aField_commandWord _ _ _, bField_commandWord _ _ _⟩

theorem EncodedFields.kdfRun : EncodedFields.Statement .kdfRun :=
  ⟨opField_commandWord _ _ _, aField_commandWord _ _ _, bField_commandWord _ _ _⟩

theorem EncodedFields.kdfLatch : EncodedFields.Statement .kdfLatch :=
  ⟨opField_commandWord _ _ _, aField_commandWord _ _ _, bField_commandWord _ _ _⟩

theorem EncodedFields.rc4Ksa : EncodedFields.Statement .rc4Ksa :=
  ⟨opField_commandWord _ _ _, aField_commandWord _ _ _, bField_commandWord _ _ _⟩

theorem EncodedFields.rc4Xorr (off len : Nat) : EncodedFields.Statement (.rc4Xorr off len) :=
  ⟨opField_commandWord _ _ _, aField_commandWord _ _ _, bField_commandWord _ _ _⟩

theorem EncodedFields.rc4Gen : EncodedFields.Statement .rc4Gen :=
  ⟨opField_commandWord _ _ _, aField_commandWord _ _ _, bField_commandWord _ _ _⟩

theorem EncodedFields.frmValidate : EncodedFields.Statement .frmValidate :=
  ⟨opField_commandWord _ _ _, aField_commandWord _ _ _, bField_commandWord _ _ _⟩

theorem EncodedFields.frmDecode : EncodedFields.Statement .frmDecode :=
  ⟨opField_commandWord _ _ _, aField_commandWord _ _ _, bField_commandWord _ _ _⟩

theorem EncodedFields.frmRx : EncodedFields.Statement .frmRx :=
  ⟨opField_commandWord _ _ _, aField_commandWord _ _ _, bField_commandWord _ _ _⟩

theorem EncodedFields.frmEncode : EncodedFields.Statement .frmEncode :=
  ⟨opField_commandWord _ _ _, aField_commandWord _ _ _, bField_commandWord _ _ _⟩

theorem RowListed.nop : RowListed.Statement .nop := by
  simp [RowListed.Statement, opcodeMap, Instr.row]

theorem RowListed.srst : RowListed.Statement .srst := by
  simp [RowListed.Statement, opcodeMap, Instr.row]

theorem RowListed.crc16Init : RowListed.Statement .crc16Init := by
  simp [RowListed.Statement, opcodeMap, Instr.row]

theorem RowListed.crc16Updb (imm : Byte) : RowListed.Statement (.crc16Updb imm) := by
  simp [RowListed.Statement, opcodeMap, Instr.row]

theorem RowListed.crc16Updr (off len : Nat) : RowListed.Statement (.crc16Updr off len) := by
  simp [RowListed.Statement, opcodeMap, Instr.row]

theorem RowListed.crc16Put (off : Nat) : RowListed.Statement (.crc16Put off) := by
  simp [RowListed.Statement, opcodeMap, Instr.row]

theorem RowListed.sum8Init : RowListed.Statement .sum8Init := by
  simp [RowListed.Statement, opcodeMap, Instr.row]

theorem RowListed.sum8Updb (imm : Byte) : RowListed.Statement (.sum8Updb imm) := by
  simp [RowListed.Statement, opcodeMap, Instr.row]

theorem RowListed.sum8Updr (off len : Nat) : RowListed.Statement (.sum8Updr off len) := by
  simp [RowListed.Statement, opcodeMap, Instr.row]

theorem RowListed.sum8Put (off : Nat) : RowListed.Statement (.sum8Put off) := by
  simp [RowListed.Statement, opcodeMap, Instr.row]

theorem RowListed.shaInit : RowListed.Statement .shaInit := by
  simp [RowListed.Statement, opcodeMap, Instr.row]

theorem RowListed.shaUpdb (imm : Byte) : RowListed.Statement (.shaUpdb imm) := by
  simp [RowListed.Statement, opcodeMap, Instr.row]

theorem RowListed.shaUpdr (off len : Nat) : RowListed.Statement (.shaUpdr off len) := by
  simp [RowListed.Statement, opcodeMap, Instr.row]

theorem RowListed.shaUpdk1 : RowListed.Statement .shaUpdk1 := by
  simp [RowListed.Statement, opcodeMap, Instr.row]

theorem RowListed.shaUpdk2 : RowListed.Statement .shaUpdk2 := by
  simp [RowListed.Statement, opcodeMap, Instr.row]

theorem RowListed.shaUpddg : RowListed.Statement .shaUpddg := by
  simp [RowListed.Statement, opcodeMap, Instr.row]

theorem RowListed.shaFin : RowListed.Statement .shaFin := by
  simp [RowListed.Statement, opcodeMap, Instr.row]

theorem RowListed.kdfRun : RowListed.Statement .kdfRun := by
  simp [RowListed.Statement, opcodeMap, Instr.row]

theorem RowListed.kdfLatch : RowListed.Statement .kdfLatch := by
  simp [RowListed.Statement, opcodeMap, Instr.row]

theorem RowListed.rc4Ksa : RowListed.Statement .rc4Ksa := by
  simp [RowListed.Statement, opcodeMap, Instr.row]

theorem RowListed.rc4Xorr (off len : Nat) : RowListed.Statement (.rc4Xorr off len) := by
  simp [RowListed.Statement, opcodeMap, Instr.row]

theorem RowListed.rc4Gen : RowListed.Statement .rc4Gen := by
  simp [RowListed.Statement, opcodeMap, Instr.row]

theorem RowListed.frmValidate : RowListed.Statement .frmValidate := by
  simp [RowListed.Statement, opcodeMap, Instr.row]

theorem RowListed.frmDecode : RowListed.Statement .frmDecode := by
  simp [RowListed.Statement, opcodeMap, Instr.row]

theorem RowListed.frmRx : RowListed.Statement .frmRx := by
  simp [RowListed.Statement, opcodeMap, Instr.row]

theorem RowListed.frmEncode : RowListed.Statement .frmEncode := by
  simp [RowListed.Statement, opcodeMap, Instr.row]

end Sys2Proof.Laws
end

