-- ==== Sys2Proof/Tests/Slice0.lean ====
section
/-! SUPPORT. Tests: expected results are the spec's own words, vectors and examples, named in each docstring; then, for each
statement with hypotheses, states and operands that meet them. -/

namespace Sys2Proof.Tests

open Sys2Proof.Machine

/-- The outcome is a next state with the property. -/
def gives (o : StepOutcome) (p : State → Bool) : Bool :=
  match o with
  | .next t => p t
  | .fault _ => false
  | .refused _ => false

/-- A buffer whose first bytes are the ones given. -/
def loaded (bs : List Byte) : Memory := Memory.writeRange [] 0 bs

/-- The reset state with a frame loaded and FLEN its length. -/
def framed (bs : List Byte) : State := { State.reset with fb := loaded bs, flen := BitVec.ofNat 12 bs.length }

/-- "DEV0000001" (95_test_vectors.md, common test data). -/
def dev1 : List Byte := [0x44, 0x45, 0x56, 0x30, 0x30, 0x30, 0x30, 0x30, 0x30, 0x31]

/-- Frame F1 (95_test_vectors.md V8). -/
def frameF1 : List Byte :=
  [0xAA, 0x55, 0x01, 0x00] ++ dev1 ++ [0x00, 0x00, 0x00, 0x00, 0x00, 0x00, 0x00, 0x00, 0x00, 0x54, 0x53, 0x55]

/-- Reply R1 (95_test_vectors.md V8). -/
def replyR1 : List Byte :=
  [0xAA, 0x55, 0x01, 0x00] ++ dev1 ++
    [0x80, 0x03, 0x00, 0x00, 0x00, 0x00, 0x00, 0x02, 0x01, 0x03, 0x06, 0x7F, 0x45, 0x55]

/-- The encrypted reply of an encoder at reset values but for TXDEV and TXCTL = 1: the key is sha256 of nothing
(95_test_vectors.md V9). -/
def replyEmptyKey : List Byte :=
  [0xAA, 0x55, 0x00, 0x01] ++ dev1 ++
    [0x80, 0x00, 0x00, 0x00, 0x00, 0x00, 0x00, 0x2B, 0x64, 0xB6, 0x04, 0xB3, 0x41, 0x55]

/-- The encoder's registers for R1 (95_test_vectors.md P2). -/
def txState : State :=
  { State.reset with txdev := loaded dev1, txcmd := 0x0003, txstat := 0x01, txreq := 0x03, txver := 0x01 }

/-- The engine with "abc" absorbed (95_test_vectors.md V3). -/
def abcEngine : ShaEngine := { ShaEngine.init with mb := loaded [0x61, 0x62, 0x63], mbn := 3, mlen := 3 }

/-- derive_key("alpha", "beta", 3) (95_test_vectors.md V4). -/
def keyAlphaBeta3 : Vector Byte 32 :=
  ⟨#[0x6b, 0xfc, 0xbb, 0x6b, 0xd6, 0x67, 0xd2, 0x1b, 0x96, 0xde, 0x33, 0x7f, 0xdc, 0x40, 0xcf, 0xb7,
     0x9e, 0x3f, 0x45, 0xe5, 0xed, 0x32, 0x58, 0x7c, 0x65, 0x44, 0x45, 0x07, 0x80, 0x69, 0x25, 0x55], rfl⟩

/-- A keyed cipher state with S the identity, as no key is needed to say what the next bytes are. -/
def identityCipher : State := { State.reset with s := some sboxIdentity, rc4v := true }

/-! ## Well-formedness refuses what no command word can carry -/

theorem test_wf_crc16Updr_off : ¬ (Instr.crc16Updr 4096 0).WellFormed := by decide
theorem test_wf_crc16Updr_len : ¬ (Instr.crc16Updr 0 4096).WellFormed := by decide
theorem test_wf_sum8Updr_off : ¬ (Instr.sum8Updr 4096 0).WellFormed := by decide
theorem test_wf_sum8Updr_len : ¬ (Instr.sum8Updr 0 4096).WellFormed := by decide
theorem test_wf_shaUpdr_off : ¬ (Instr.shaUpdr 4096 0).WellFormed := by decide
theorem test_wf_shaUpdr_len : ¬ (Instr.shaUpdr 0 4096).WellFormed := by decide
theorem test_wf_rc4Xorr_off : ¬ (Instr.rc4Xorr 4096 0).WellFormed := by decide
theorem test_wf_rc4Xorr_len : ¬ (Instr.rc4Xorr 0 4096).WellFormed := by decide
theorem test_wf_crc16Put : ¬ (Instr.crc16Put 4096).WellFormed := by decide
theorem test_wf_sum8Put : ¬ (Instr.sum8Put 4096).WellFormed := by decide
theorem test_wf_accepts_largest : (Instr.crc16Updr 4095 4095).WellFormed ∧ (Instr.sum8Put 4095).WellFormed := by decide

/-! ## Decoding: words from the opcode map (30_encoding.md R104) and 95_test_vectors.md V6 -/

theorem test_decode_nop : decode 0x00000000 = .ok .nop := by decide
theorem test_decode_srst : decode 0x01000000 = .ok .srst := by decide
theorem test_decode_crc16Init : decode 0x10000000 = .ok .crc16Init := by decide
theorem test_decode_crc16Updb : decode 0x11000003 = .ok (.crc16Updb 0x03) := by decide
theorem test_decode_crc16Updr : decode 0x1206400A = .ok (.crc16Updr 100 10) := by decide
theorem test_decode_crc16Put : decode 0x13019000 = .ok (.crc16Put 25) := by decide
theorem test_decode_sum8Init : decode 0x20000000 = .ok .sum8Init := by decide
theorem test_decode_sum8Updb : decode 0x210000FF = .ok (.sum8Updb 0xFF) := by decide
theorem test_decode_sum8Updr : decode 0x2201502F = .ok (.sum8Updr 21 47) := by decide
theorem test_decode_sum8Put : decode 0x23018000 = .ok (.sum8Put 24) := by decide
theorem test_decode_shaInit : decode 0x30000000 = .ok .shaInit := by decide
theorem test_decode_shaUpdb : decode 0x31000061 = .ok (.shaUpdb 0x61) := by decide
theorem test_decode_shaUpdr : decode 0x32000040 = .ok (.shaUpdr 0 64) := by decide
theorem test_decode_shaUpdk1 : decode 0x33000000 = .ok .shaUpdk1 := by decide
theorem test_decode_shaUpdk2 : decode 0x34000000 = .ok .shaUpdk2 := by decide
theorem test_decode_shaUpddg : decode 0x35000000 = .ok .shaUpddg := by decide
theorem test_decode_shaFin : decode 0x36000000 = .ok .shaFin := by decide
theorem test_decode_kdfRun : decode 0x38000000 = .ok .kdfRun := by decide
theorem test_decode_kdfLatch : decode 0x39000000 = .ok .kdfLatch := by decide
theorem test_decode_rc4Ksa : decode 0x40000000 = .ok .rc4Ksa := by decide
theorem test_decode_rc4Xorr : decode 0x41015030 = .ok (.rc4Xorr 21 48) := by decide
theorem test_decode_rc4Gen : decode 0x42000000 = .ok .rc4Gen := by decide
theorem test_decode_frmValidate : decode 0x50000000 = .ok .frmValidate := by decide
theorem test_decode_frmDecode : decode 0x51000000 = .ok .frmDecode := by decide
theorem test_decode_frmRx : decode 0x52000000 = .ok .frmRx := by decide
theorem test_decode_frmEncode : decode 0x53000000 = .ok .frmEncode := by decide

/-- One word of each operand form, every bit written out as OP, A, B (30_encoding.md R100, R101). -/
theorem test_decode_bits :
    decode 0b00110101_000000000000_000000000000 = .ok .shaUpddg ∧
      decode 0b00010001_000000000000_000010100101 = .ok (.crc16Updb 0xA5) ∧
      decode 0b01000001_100000000001_010000000010 = .ok (.rc4Xorr 0x801 0x402) ∧
      decode 0b00100011_111111111110_000000000000 = .ok (.sum8Put 0xFFE) := by decide

/-- The illegal words of 95_test_vectors.md V6, each refused by name. -/
theorem test_decode_illegal :
    decode 0x7F000000 = .error (.unassignedOpcode 0x7F) ∧ decode 0x37000000 = .error (.unassignedOpcode 0x37) ∧
      decode 0x00000001 = .error (.operandNotZero 0x00) ∧ decode 0x10000001 = .error (.operandNotZero 0x10) ∧
      decode 0x11000100 = .error (.operandNotZero 0x11) ∧ decode 0x11001003 = .error (.operandNotZero 0x11) ∧
      decode 0x13019001 = .error (.operandNotZero 0x13) := by decide

/-- The encoder writes the words of 95_test_vectors.md V6. -/
theorem test_encode :
    encode (.crc16Updr 0 25) = 0x12000019 ∧ encode (.sum8Updr 21 3) = 0x22015003 ∧ encode (.crc16Put 25) = 0x13019000 ∧
      encode (.shaUpdb 0x61) = 0x31000061 ∧ encode .frmEncode = 0x53000000 := by decide

theorem test_decodeTableWord : decodeTableWord 32 0x41015030 = some (.rc4Xorr 21 48) ∧ decodeTableWord 32 0x7F000000 = none := by
  decide

/-- The assembler line of 30_encoding.md R106 and a pseudo-operation's expansion (R107). -/
theorem test_assembly :
    (Instr.crc16Updr 0 25).assembly = "CRC16.UPDR 0, 25" ∧
      Pseudo.kdfStepN.expand = [.shaInit, .shaUpddg, .shaUpdk1, .shaUpdk2, .shaFin] := by decide

/-! ## One step of each operation -/

/-- A command word runs as the first instruction after reset (95_test_vectors.md P1). -/
theorem test_withFetchWord :
    gives (step (State.reset.withFetchWord 32 0x11000001)) (fun t => t.crc16 == 0xF1D1 && t.status == 0) := by decide

/-- 95_test_vectors.md V10: NOP keeps a reject code. -/
theorem test_nop : gives (exec .nop (State.reset.reject .crc16)) (fun t => t.status == 0x00000300) := by decide

/-- 95_test_vectors.md V10: SRST from STATUS 0x1180. -/
theorem test_srst :
    gives (exec .srst ((framed frameF1).raise .range))
      (fun t => t.status == 0 && t.flen == 0 && t.crc16 == 0xFFFF && (t.fb.read 0).isNone) := by decide

/-- 40_crc16.md R125: the initial value, from any other. -/
theorem test_crc16Init : gives (exec .crc16Init { State.reset with crc16 := 0x1234 }) (fun t => t.crc16 == 0xFFFF) := by
  decide

/-- 95_test_vectors.md P1: after F1D1, byte 02 gives 0E7C. -/
theorem test_crc16Updb : gives (exec (.crc16Updb 0x02) { State.reset with crc16 := 0xF1D1 }) (fun t => t.crc16 == 0x0E7C) := by
  decide

/-- 95_test_vectors.md V1: the range 0, 3 of 01 02 03. -/
theorem test_crc16Updr :
    gives (exec (.crc16Updr 0 3) (framed [0x01, 0x02, 0x03])) (fun t => t.crc16 == 0xADAD && t.status == 0) := by decide +kernel

/-- 95_test_vectors.md V1: off = FLEN with len = 1 is F_RANGE, with len = 0 it is ok. -/
theorem test_crc16Updr_edge :
    gives (exec (.crc16Updr 3 1) (framed [0x01, 0x02, 0x03])) (fun t => t.crc16 == 0xFFFF && t.status == 0x1180) ∧
      gives (exec (.crc16Updr 3 0) (framed [0x01, 0x02, 0x03])) (fun t => t.crc16 == 0xFFFF && t.status == 0) := by decide

/-- 40_crc16.md R128: 7F at the offset, 45 after it. -/
theorem test_crc16Put :
    gives (exec (.crc16Put 25) { State.reset with crc16 := 0x7F45 })
      (fun t => t.fb.read 25 == some 0x7F && t.fb.read 26 == some 0x45 && t.flen == 0) := by decide

/-- 95_test_vectors.md V1: 510 is the last offset, 511 is F_RANGE. -/
theorem test_crc16Put_edge :
    gives (exec (.crc16Put 510) State.reset) (fun t => t.fb.read 511 == some 0xFF && t.status == 0) ∧
      gives (exec (.crc16Put 511) State.reset) (fun t => t.status == 0x1180) := by decide

/-- 41_sum8.md R145. -/
theorem test_sum8Init : gives (exec .sum8Init { State.reset with sum8 := 0x77 }) (fun t => t.sum8 == 0x00) := by decide

/-- 41_sum8.md R146: FF and 01 give 00. -/
theorem test_sum8Updb : gives (exec (.sum8Updb 0x01) { State.reset with sum8 := 0xFF }) (fun t => t.sum8 == 0x00) := by decide

/-- 41_sum8.md R147: 02 01 03 at offset 21 give 06. -/
theorem test_sum8Updr :
    gives (exec (.sum8Updr 21 3) (framed (List.replicate 21 0xEE ++ [0x02, 0x01, 0x03]))) (fun t => t.sum8 == 0x06) := by decide

/-- 41_sum8.md R148: the sum at offset 24. -/
theorem test_sum8Put :
    gives (exec (.sum8Put 24) { State.reset with sum8 := 0x06 }) (fun t => t.fb.read 24 == some 0x06 && t.status == 0) := by
  decide

/-- 95_test_vectors.md V2: 511 is the last offset, 512 is F_RANGE. -/
theorem test_sum8Put_edge :
    gives (exec (.sum8Put 511) State.reset) (fun t => t.status == 0) ∧
      gives (exec (.sum8Put 512) State.reset) (fun t => t.status == 0x1180) := by decide

/-- 42_sha256_kdf.md R172: H is H0, the block is empty, SHAV is 1. -/
theorem test_shaInit :
    gives (exec .shaInit { State.reset with sha := abcEngine })
      (fun t => t.sha.h == some shaH0 && t.sha.mbn == 0 && t.sha.mlen == 0 && t.status == 0x08) := by decide

/-- 42_sha256_kdf.md R164: the byte at MBN, both counts one up. -/
theorem test_shaUpdb :
    gives (exec (.shaUpdb 0x64) { State.reset with sha := abcEngine, shav := true })
      (fun t => t.sha.mb.read 3 == some 0x64 && t.sha.mbn == 4 && t.sha.mlen == 4) := by decide

/-- 42_sha256_kdf.md R174: the bytes of the range in order. -/
theorem test_shaUpdr :
    gives (exec (.shaUpdr 1 2) { framed [0x61, 0x62, 0x63] with sha := ShaEngine.init, shav := true })
      (fun t => t.sha.mb.read 0 == some 0x62 && t.sha.mb.read 1 == some 0x63 && t.sha.mbn == 2) := by decide

/-- 42_sha256_kdf.md R175: K1B[0..K1LEN). -/
theorem test_shaUpdk1 :
    gives (exec .shaUpdk1 { State.reset with k1b := loaded [0x61, 0x6C], k1len := 2, sha := ShaEngine.init, shav := true })
      (fun t => t.sha.mb.read 1 == some 0x6C && t.sha.mlen == 2) := by decide

/-- 42_sha256_kdf.md R176: K2B[0..K2LEN). -/
theorem test_shaUpdk2 :
    gives (exec .shaUpdk2 { State.reset with k2b := loaded [0x62, 0x65], k2len := 2, sha := ShaEngine.init, shav := true })
      (fun t => t.sha.mb.read 1 == some 0x65 && t.sha.mlen == 2) := by decide

/-- 42_sha256_kdf.md R177: the 32 digest bytes; 95_test_vectors.md V3: F_NODG with SHAV staying 1. -/
theorem test_shaUpddg :
    gives (exec .shaUpddg { State.reset with sha := ShaEngine.init, shav := true, dg := some keyAlphaBeta3, dgv := true })
        (fun t => t.sha.mb.read 31 == some 0x55 && t.sha.mbn == 32) ∧
      gives (exec .shaUpddg { State.reset with sha := ShaEngine.init, shav := true }) (fun t => t.status == 0x1688) := by
  decide

/-- 95_test_vectors.md V3: "abc". -/
theorem test_shaFin :
    gives (exec .shaFin { State.reset with sha := abcEngine, shav := true })
      (fun t => t.readReg (.dgw 0) == some 0xBA7816BF && t.readReg (.dgw 7) == some 0xF20015AD && t.status == 0x10) := by
  decide +kernel

/-- 95_test_vectors.md V4: at reset KDF.RUN leaves sha256 of nothing in DG and DK. -/
theorem test_kdfRun :
    gives (exec .kdfRun State.reset)
      (fun t => t.readReg (.dkw 0) == some 0xE3B0C442 && t.readReg (.dkw 7) == some 0x7852B855 && t.dg == t.dk &&
        t.status == 0x30) := by
  decide +kernel

/-- 42_sha256_kdf.md R179: a length above KEY_MAX comes before an undefined byte. -/
theorem test_kdfRun_keyLen :
    gives (exec .kdfRun { State.reset with k1len := 1, k2len := 65 }) (fun t => t.status == 0x1880) := by decide

/-- 42_sha256_kdf.md R180; 95_test_vectors.md V4: at reset it is F_NODG. -/
theorem test_kdfLatch :
    gives (exec .kdfLatch { State.reset with dg := some keyAlphaBeta3, dgv := true })
        (fun t => t.dk == some keyAlphaBeta3 && t.status == 0x30) ∧
      gives (exec .kdfLatch State.reset) (fun t => t.status == 0x1680) := by decide

/-- 43_rc4.md R196: the first bytes of S for the key of the rule. -/
theorem test_rc4Ksa :
    gives (exec .rc4Ksa { State.reset with dk := some keyAlphaBeta3, dkv := true, ri := 0x11, rj := 0x22 })
      (fun t => (t.s.map fun sb => sb.toList.take 8) == some [0x41, 0x68, 0xD6, 0xA7, 0x6D, 0xD9, 0xB1, 0x10] &&
        t.ri == 0 && t.rj == 0 && t.status == 0x60) := by
  decide +kernel

/-- 43_rc4.md R192 by hand on the identity: i = j = 1 gives S[2] = 02, then i = 2, j = 3 gives S[5] = 05 (R197). -/
theorem test_rc4Xorr :
    gives (exec (.rc4Xorr 1 2) { identityCipher with fb := loaded [0x00, 0xF0, 0xF0], flen := 3 })
      (fun t => t.fb.read 0 == some 0x00 && t.fb.read 1 == some 0xF2 && t.fb.read 2 == some 0xF5 && t.ri == 2 && t.rj == 3) := by
  decide +kernel

/-- 43_rc4.md R192, R198 by hand on the identity with i = j = 1. -/
theorem test_rc4Gen :
    gives (exec .rc4Gen { identityCipher with ri := 1, rj := 1 }) (fun t => t.ksb == 0x05 && t.ri == 2 && t.rj == 3) := by
  decide +kernel

/-- 95_test_vectors.md V5: the published pair "Wiki", "pedia". -/
theorem test_rc4Crypt :
    rc4Crypt [0x57, 0x69, 0x6B, 0x69] [0x70, 0x65, 0x64, 0x69, 0x61] = [0x10, 0x21, 0xBF, 0x04, 0x20] := by decide +kernel

/-- 44_frame_rx.md R212: FF FF 55 is a valid frame. -/
theorem test_frmValidate :
    gives (exec .frmValidate (framed [0xFF, 0xFF, 0x55])) (fun t => t.crc16 == 0xFFFF && t.status == 0x01) := by decide

/-- 95_test_vectors.md L1.3: the three rejects. -/
theorem test_frmValidate_rejects :
    gives (exec .frmValidate (framed [0xFF, 0xFF])) (fun t => t.status == 0x0100) ∧
      gives (exec .frmValidate (framed [0xFF, 0xFF, 0x54])) (fun t => t.status == 0x0200) ∧
      gives (exec .frmValidate (framed [0xFF, 0xFE, 0x55])) (fun t => t.status == 0x0300) := by decide

/-- 95_test_vectors.md V8: F1 decodes with its crc8 correct. -/
theorem test_frmDecode : gives (exec .frmDecode (framed frameF1)) (fun t => t.sum8 == 0x00 && t.status == 0x02) := by decide

/-- 95_test_vectors.md V9: the encrypted reply decodes to 02 00 00 02, in place. -/
theorem test_frmDecode_encrypted :
    gives (exec .frmDecode (framed replyEmptyKey))
      (fun t => t.fb.readRange 21 4 == some [0x02, 0x00, 0x00, 0x02] && t.fb.read 24 == some 0x02 && t.sum8 == 0x02 &&
        t.status == 0x76) := by
  decide +kernel

/-- 95_test_vectors.md V8: F1 is accepted. -/
theorem test_frmRx : gives (exec .frmRx (framed frameF1)) (fun t => t.crc16 == 0x5453 && t.status == 0x03) := by decide +kernel

/-- 44_frame_rx.md R220: FF FF 55 is valid and too short to decode. -/
theorem test_frmRx_short :
    gives (exec .frmRx (framed [0xFF, 0xFF, 0x55])) (fun t => t.crc16 == 0xFFFF && t.status == 0x0401) := by decide

/-- 95_test_vectors.md P2: R1, FLEN 28, SUM8 06, CRC16 7F45. -/
theorem test_frmEncode :
    gives (exec .frmEncode txState)
      (fun t => t.fb.readRange 0 28 == some replyR1 && t.flen == 28 && t.sum8 == 0x06 && t.crc16 == 0x7F45 && t.status == 0) := by
  decide +kernel

/-- 95_test_vectors.md V9: the reply encrypted under the key of two empty secrets. -/
theorem test_frmEncode_encrypted :
    gives (exec .frmEncode { State.reset with txdev := loaded dev1, txctl := 1 })
      (fun t => t.fb.readRange 0 28 == some replyEmptyKey && t.status == 0x70) := by
  decide +kernel

/-! ## The host window (95_test_vectors.md V7) -/

/-- The answer of one event on a state. -/
def answered (s : State) (e : HostEvent) (p : State → Bool) : Bool := gives (step { s with host := [e] }) p

theorem test_write_narrow :
    answered State.reset (.write32 0x0028 0x00001234) (fun t => t.txstat == 0x34 && t.reply == .done) ∧
      answered State.reset (.write32 0x001C 0x000003FF) (fun t => t.readReg .k1len == some 0x1FF) ∧
      answered State.reset (.write32 0x0038 0xFFFFFFFE) (fun t => t.readReg .txctl == some 0) := by decide

theorem test_write_readOnly :
    answered State.reset (.write32 0x0010 0) (fun t => t.crc16 == 0xFFFF && t.reply == .done) ∧
      answered (State.reset.raise .range) (.write32 0x0004 0xFFFFFFFF) (fun t => t.status == 0x1180) := by decide

theorem test_read32 :
    answered State.reset (.read32 0x0010) (fun t => t.reply == .data32 0x0000FFFF) ∧
      answered State.reset (.read32 0x0000) (fun t => t.reply == .data32 0) ∧
      answered (State.reset.raise .opcode) (.read32 0x0004) (fun t => t.reply == .data32 0x00001080) := by decide

theorem test_refused :
    answered State.reset (.read8 0x0004) (fun t => t.reply == .busError && t.status == 0) ∧
      answered State.reset (.write8 0x0004 0) (fun t => t.reply == .busError) ∧
      answered State.reset (.read32 0x1000) (fun t => t.reply == .busError) ∧
      answered State.reset (.read32 0x0080) (fun t => t.reply == .busError) ∧
      answered State.reset (.read8 0x0005) (fun t => t.reply == .busError) ∧
      answered State.reset (.write8 0x1200 0) (fun t => t.reply == .busError && t.fb == []) ∧
      answered State.reset (.write16 0x1000 0) (fun t => t.reply == .busError && t.fb == []) := by decide

theorem test_buffer_bytes :
    answered State.reset (.write8 0x1000 0xAA) (fun t => t.fb.read 0 == some 0xAA && t.reply == .done) ∧
      answered (framed frameF1) (.read8 0x1000) (fun t => t.reply == .data8 0xAA) ∧
      answered State.reset (.read8 0x1001) (fun t => t.status == 0 && t.freeCount == 1) := by decide

/-- 70_reset_and_hazards.md R320: a reset of the platform clears FAULT and the buffers. -/
theorem test_platformReset :
    answered ((framed frameF1).raise .range) .platformReset (fun t => t.status == 0 && t.fb == [] && t.flen == 0) := by decide

/-- 60_exceptions.md R291: STATUS after each reject and each fault, in the order of the table. -/
theorem test_codes :
    ([.tooShort, .endMarker, .crc16, .decodeShort, .segmentShort, .crc8].map fun c => (State.reset.reject c).status) =
        [0x0100, 0x0200, 0x0300, 0x0400, 0x0500, 0x0600] ∧
      ([.opcode, .range, .undef, .noKey, .noKs, .noSha, .noDg, .payload, .keyLen].map fun c =>
          (State.reset.raise c).status) =
        [0x1080, 0x1180, 0x1280, 0x1380, 0x1480, 0x1580, 0x1680, 0x1780, 0x1880] := by decide

/-- 95_test_vectors.md V6: an illegal word is F_OPCODE, and 10_state.md R27: STATUS of a received encrypted frame. -/
theorem test_status :
    gives (State.reset.command 0x7F000000) (fun t => t.status == 0x1080) ∧
      State.status { State.reset with valid := true, crc8ok := true, rxenc := true, dgv := true, dkv := true, rc4v := true } =
        0x00000077 := by decide

/-! ## States and operands that meet the hypotheses of each statement, one theorem a statement, boundary values included -/

/-- The reset state with one host event to come. -/
def hosted (e : HostEvent) : State := { State.reset with host := [e] }

/-- The smallest block the spec allows, with every byte of every buffer written. -/
def fullSmall : State :=
  let m (n : Nat) : Memory := (List.range n).map fun i => (i, 0x00)
  { State.resetWith ⟨281, 1, by decide, by decide, by decide, by decide⟩ with
    fb := m 281, k1b := m 1, k2b := m 1, txdev := m 10, txx := m 253, flen := 281, k1len := 1, k2len := 1, txxlen := 253 }

/-- A message open with nothing absorbed, a frame of three bytes, and secrets of the largest and the smallest length. -/
def openMessage : State :=
  { framed [0x61, 0x62, 0x63] with
    sha := ShaEngine.init, shav := true, k1b := loaded (List.replicate 64 0x11), k1len := 64, dg := some keyAlphaBeta3,
    dgv := true }

/-- FLEN above FB_SIZE by one. -/
def longFrame : State := { State.reset with flen := 513 }

/-- A first key above KEY_MAX by one, and nothing else. -/
def longKey : State := { State.reset with k1len := 65 }

/-- Secrets of one byte and of KEY_MAX bytes. -/
def withKeys (s : State) : State :=
  { s with k1b := loaded [0x61], k1len := 1, k2b := loaded (List.replicate 64 0x22), k2len := 64 }

/-- The encrypted reply in FB, with a first secret whose byte is missing. -/
def lackingKey : State := { framed replyEmptyKey with k1len := 64 }

theorem inv_reset : State.reset.Inv where
  buffers := by decide
  block := by decide
  flags := by decide
  sbox := fun _ h => nomatch h
  recorded := fun _ h => nomatch h

theorem inv_openMessage : openMessage.Inv where
  buffers := by decide +kernel
  block := by decide
  flags := by decide
  sbox := fun _ h => nomatch h
  recorded := fun _ h => nomatch h

theorem witness_EncodedOperationDecodesToItself : (Instr.rc4Xorr 0 4095).WellFormed ∧ (Instr.crc16Put 4095).WellFormed := by
  decide

theorem witness_DecodedWordIsTheEncoding : decode 0x12FFFFFF = .ok (.crc16Updr 4095 4095) := by decide

theorem witness_StepRunsTheDecodedOperation :
    (hosted (.write32 0x0000 0x20000000)).host = .write32 0x0000 0x20000000 :: [] ∧ decode 0x20000000 = .ok .sum8Init := by
  decide

theorem witness_IllegalWordIsOpcodeFault :
    (hosted (.write32 0x0000 0x00000001)).host = .write32 0x0000 0x00000001 :: [] ∧
      ∀ r ∈ opcodeMap, ¬ r.matches 0x00000001 := by decide

theorem witness_FaultingOperationChangesNothingElse :
    (Instr.kdfLatch ≠ .nop ∧ exec .kdfLatch State.reset = .next (State.reset.raise .noDg) ∧
        (State.reset.raise .noDg).err = .fault .noDg) ∧
      fullSmall.Loaded ∧ gives (exec .frmValidate fullSmall) (fun _ => true) := by
  refine ⟨⟨by decide, rfl, rfl⟩, ⟨fun b => ?_, by decide⟩, by decide +kernel⟩
  cases b <;> decide +kernel

theorem witness_FaultBitIsSticky :
    exec .sum8Init (State.reset.raise .range) = .next { State.reset with fault := true } ∧
      (∀ i, decode 0x7F000000 ≠ .ok i) ∧
      (hosted .platformReset).host = .platformReset :: [] ∧
      step { hosted (.write32 0x0000 0x01000000) with fault := true } = .next { State.reset with reply := .done } := by
  refine ⟨rfl, fun i h => ?_, rfl, rfl⟩
  exact absurd h (by rw [test_decode_illegal.1]; exact nofun)

theorem witness_NoCommandReadsFaultOrErr : decode 0x36000000 ≠ .ok .nop := by decide

theorem witness_OperationEndsInAListedOutcome :
    openMessage.Inv ∧ Instr.shaInit ≠ .nop ∧ exec .shaInit openMessage = .next { openMessage with sha := ShaEngine.init } :=
  ⟨inv_openMessage, by decide, rfl⟩

theorem witness_EveryStepKeepsTheInvariant :
    State.reset.Inv ∧ openMessage.Inv ∧ step State.reset = .next State.reset := ⟨inv_reset, inv_openMessage, rfl⟩

theorem witness_ResetValuesAreTheTable : (hosted .platformReset).host = .platformReset :: [] := rfl

theorem witness_SrstAndPlatformResetAgree :
    (hosted .platformReset).host = .platformReset :: [] ∧
      (hosted (.write32 0x0000 0x01000000)).host = .write32 0x0000 0x01000000 :: [] := ⟨rfl, rfl⟩

theorem witness_SrstResetsTheBlock :
    Instr.kdfLatch ≠ .srst ∧ gives (exec .kdfLatch { openMessage with dk := openMessage.dg, dkv := true, fault := true })
      (fun _ => true) := by decide

theorem witness_NopChangesNothing : opField 0x00000001 = 0x00 ∧ (0x00000001 : Word) ≠ 0x00000000 ∧ Instr.srst ≠ .nop := by
  decide

theorem witness_ResultFlagsHaveTheirWriters :
    Instr.frmEncode ≠ .srst ∧ Instr.frmEncode ≠ .frmValidate ∧ Instr.frmEncode ≠ .frmRx ∧ Instr.frmEncode ≠ .frmDecode ∧
      exec .frmEncode State.reset = .next (State.reset.raise .undef) :=
  ⟨by decide, by decide, by decide, by decide, rfl⟩

theorem witness_DerivedKeyIsASnapshot :
    let s := { openMessage with host := [.write32 0x0000 0x39000000] }
    let t := { openMessage with reply := .done, dk := openMessage.dg, dkv := true }
    step s = .next t ∧ ¬ (t.dk = s.dk ∧ t.dkv = s.dkv) := ⟨rfl, by decide⟩

theorem witness_OperationsLeaveTheHostsBuffers :
    exec .shaInit openMessage = .next { openMessage with sha := ShaEngine.init } ∧ Instr.shaInit ≠ .srst ∧
      Instr.shaInit ≠ .frmEncode := ⟨rfl, by decide, by decide⟩

theorem witness_ClearedValidityFlagFaults :
    State.reset.shav = false ∧ State.reset.dgv = false ∧ State.reset.dkv = false ∧ State.reset.rc4v = false ∧
      ({ openMessage with dgv := false }.shav = true ∧ { openMessage with dgv := false }.dgv = false) := by decide

theorem witness_Crc16InitAndByteUpdate : opField 0x11000100 = 0x11 ∧ opField 0x10000001 = 0x10 := by decide

theorem witness_Crc16RangeUpdate :
    (framed [1, 2, 3]).HasRange 0 3 [1, 2, 3] ∧ (framed [1, 2, 3]).HasRange 3 0 [] ∧
      (framed [1, 2, 3]).flen.toNat < 3 + 1 ∧ longFrame.cfg.fbSize < longFrame.flen.toNat ∧
      ({ State.reset with flen := 512 }.flen.toNat ≤ 512 ∧ 511 + 1 ≤ { State.reset with flen := 512 }.flen.toNat ∧
        State.reset.fb.Lacks 511 1) := by decide

theorem witness_Crc16PutStoresBigEndian : 510 + 2 ≤ State.reset.cfg.fbSize ∧ State.reset.cfg.fbSize < 511 + 2 := by decide

theorem witness_Crc16DetectsEverySingleBitFlip :
    crc16Of [0xFF, 0xFF] = 0 ∧ ([0xFF, 0xFF] : List Byte)[1]? = some 0xFF ∧ 7 < 8 := by decide +kernel

theorem witness_Sum8InitAndByteUpdate : opField 0x21001000 = 0x21 ∧ opField 0x20000001 = 0x20 := by decide

theorem witness_Sum8RangeUpdate :
    (framed [1, 2, 3]).HasRange 2 1 [3] ∧ (framed [1, 2, 3]).HasRange 3 0 [] ∧ (framed [1, 2, 3]).flen.toNat < 0 + 4 ∧
      longFrame.cfg.fbSize < longFrame.flen.toNat ∧
      ({ State.reset with flen := 1 }.flen.toNat ≤ 512 ∧ 0 + 1 ≤ { State.reset with flen := 1 }.flen.toNat ∧
        State.reset.fb.Lacks 0 1) := by decide

theorem witness_Sum8PutStoresTheSum : 511 + 1 ≤ State.reset.cfg.fbSize ∧ State.reset.cfg.fbSize < 512 + 1 := by decide

/-- An engine with 63 bytes, one short of a block. -/
def fullEngine : ShaEngine := { ShaEngine.init with mb := loaded (List.replicate 63 0x61), mbn := 63, mlen := 63 }

theorem witness_AbsorbFillsAndCompresses :
    (ShaEngine.init.Ready ∧ ShaEngine.init.mbn.val < 63) ∧ fullEngine.Ready ∧ fullEngine.mbn.val = 63 := by decide

theorem witness_ShaUpdatesAbsorbTheirBytes :
    openMessage.Inv ∧ openMessage.shav = true ∧ openMessage.HasRange 0 3 [0x61, 0x62, 0x63] ∧
      (openMessage.k1len.toNat ≤ openMessage.cfg.keyMax ∧ (List.replicate 64 0x11).length = openMessage.k1len.toNat ∧
        openMessage.k1b.Holds 0 (List.replicate 64 0x11)) ∧
      (openMessage.k2len.toNat ≤ openMessage.cfg.keyMax ∧ ([] : List Byte).length = openMessage.k2len.toNat ∧
        openMessage.k2b.Holds 0 []) ∧
      openMessage.dgv = true ∧ openMessage.dg = some keyAlphaBeta3 :=
  ⟨inv_openMessage, by decide +kernel⟩

theorem witness_ShaUpdatesCheckTheirOperands :
    openMessage.shav = true ∧ openMessage.flen.toNat < 1 + 3 ∧
      { openMessage with flen := 513 }.cfg.fbSize < { openMessage with flen := 513 }.flen.toNat ∧
      ({ openMessage with flen := 4 }.flen.toNat ≤ 512 ∧ 3 + 1 ≤ { openMessage with flen := 4 }.flen.toNat ∧
        openMessage.fb.Lacks 3 1) ∧
      { openMessage with k1len := 65 }.cfg.keyMax < { openMessage with k1len := 65 }.k1len.toNat ∧
      ({ openMessage with k1b := [] }.k1len.toNat ≤ 64 ∧ Memory.Lacks [] 0 openMessage.k1len.toNat) ∧
      { openMessage with k2len := 65 }.cfg.keyMax < { openMessage with k2len := 65 }.k2len.toNat ∧
      ({ openMessage with k2len := 64 }.k2len.toNat ≤ 64 ∧ openMessage.k2b.Lacks 0 64) := by decide +kernel

theorem witness_ShaFinClosesTheMessage : openMessage.Inv ∧ openMessage.shav = true := ⟨inv_openMessage, rfl⟩

theorem witness_StreamingEngineComputesSha256 :
    { State.reset with sha := abcEngine, shav := true }.shav = true ∧
      { State.reset with sha := abcEngine, shav := true }.sha.HasAbsorbed [0x61, 0x62, 0x63] ∧
      ([0x61, 0x62, 0x63] : List Byte).length < 2 ^ 61 := ⟨rfl, rfl, by decide⟩

theorem witness_KdfRunDerivesTheKey :
    State.reset.HasKeys [] [] ∧ (withKeys State.reset).HasKeys [0x61] (List.replicate 64 0x22) ∧
      longKey.cfg.keyMax < longKey.k1len.toNat ∧
      (lackingKey.k1len.toNat ≤ lackingKey.cfg.keyMax ∧ lackingKey.k2len.toNat ≤ lackingKey.cfg.keyMax ∧
        lackingKey.k1b.Lacks 0 lackingKey.k1len.toNat) := by decide +kernel

theorem witness_KdfRunEqualsItsExpansion : { withKeys State.reset with iter := 3 }.HasKeys [0x61] (List.replicate 64 0x22) := by
  decide +kernel

theorem witness_KdfLatchCopiesTheDigest :
    (openMessage.dgv = true ∧ openMessage.dg = some keyAlphaBeta3) ∧ State.reset.dgv = false := by decide

theorem witness_WordViewsAreBigEndian :
    (openMessage.dgv = true ∧ openMessage.dg = some keyAlphaBeta3) ∧
      { openMessage with dk := openMessage.dg, dkv := true }.dkv = true ∧
      { openMessage with dk := openMessage.dg, dkv := true }.dk = some keyAlphaBeta3 := by decide

theorem witness_Rc4KsaSchedulesTheKey :
    ({ openMessage with dk := openMessage.dg, dkv := true }.dkv = true ∧
        { openMessage with dk := openMessage.dg, dkv := true }.dk = some keyAlphaBeta3) ∧ State.reset.dkv = false := by decide

/-- A keyed cipher state with a frame of three bytes. -/
def cipherFrame : State := { framed [1, 2, 3] with s := some sboxIdentity, rc4v := true }

theorem witness_Rc4XorrContinuesTheKeystream :
    cipherFrame.rc4v = true ∧ cipherFrame.s = some sboxIdentity ∧ cipherFrame.HasRange 0 3 [1, 2, 3] ∧
      cipherFrame.HasRange 3 0 [] ∧ cipherFrame.flen.toNat < 3 + 1 ∧
      { cipherFrame with flen := 513 }.cfg.fbSize < { cipherFrame with flen := 513 }.flen.toNat ∧
      ({ cipherFrame with flen := 4 }.flen.toNat ≤ 512 ∧ 3 + 1 ≤ { cipherFrame with flen := 4 }.flen.toNat ∧
        cipherFrame.fb.Lacks 3 1) :=
  ⟨rfl, rfl, by decide⟩

theorem witness_Rc4GenGivesTheNextByte :
    cipherFrame.rc4v = true ∧ cipherFrame.s = some sboxIdentity ∧ cipherFrame.HasRange 2 1 [3] ∧ State.reset.rc4v = false :=
  ⟨rfl, rfl, by decide, rfl⟩

theorem witness_RescheduledXorrRestoresTheRange :
    { framed [1, 2, 3] with dk := some keyAlphaBeta3, dkv := true }.dkv = true ∧
      { framed [1, 2, 3] with dk := some keyAlphaBeta3, dkv := true }.dk = some keyAlphaBeta3 ∧
      { framed [1, 2, 3] with dk := some keyAlphaBeta3, dkv := true }.HasRange 1 2 [2, 3] := by decide

theorem witness_FrmValidateChecksTheFrame :
    ((framed [0xFF, 0xFF]).HasFrame [0xFF, 0xFF] ∧ ([0xFF, 0xFF] : List Byte).length < 3) ∧
      (framed [0xFF, 0xFF, 0x54]).HasFrame ([] ++ [0xFF, 0xFF, 0x54]) ∧
      ((framed [0xFF, 0xFE, 0x55]).HasFrame ([] ++ [0xFF, 0xFE, 0x55]) ∧ crc16Of [] ≠ ofBe16 0xFF 0xFE) ∧
      ((framed [0xFF, 0xFF, 0x55]).HasFrame ([] ++ [0xFF, 0xFF, 0x55]) ∧ crc16Of [] = ofBe16 0xFF 0xFF) ∧
      longFrame.cfg.fbSize < longFrame.flen.toNat ∧
      ({ State.reset with flen := 512 }.flen.toNat ≤ 512 ∧ State.reset.fb.Lacks 0 512) := by decide +kernel

theorem witness_FrmDecodeReportsAClearFrame :
    ((framed (frameF1.take 20)).HasFrame (frameF1.take 20) ∧ (frameF1.take 20).length < 21) ∧
      ((framed (frameF1.take 25)).HasFrame (frameF1.take 25) ∧ 21 ≤ (frameF1.take 25).length ∧
        (frameF1.take 25).length < 26) ∧
      ((framed frameF1).HasFrame (frameF1.take 21 ++ [0x00] ++ [0x00] ++ [0x54, 0x53, 0x55]) ∧
        (frameF1.take 21).length = 21 ∧ (frameF1.take 21)[3]? = some 0x00 ∧ (0x00 : Byte) &&& 0x01 = 0x00) := by
  decide +kernel

/-- 95_test_vectors.md V9: the segment of the encrypted reply under the key of two empty secrets. -/
theorem witness_FrmDecodeDecryptsInPlace :
    (framed replyEmptyKey).HasFrame (replyEmptyKey.take 21 ++ [0x2B, 0x64, 0xB6, 0x04] ++ [0xB3, 0x41, 0x55]) ∧
      (replyEmptyKey.take 21).length = 21 ∧ (replyEmptyKey.take 21)[3]? = some 0x01 ∧ (0x01 : Byte) &&& 0x01 = 0x01 ∧
      (framed replyEmptyKey).HasKeys [] [] ∧
      rc4Crypt (deriveKey [] [] (framed replyEmptyKey).iter.toNat).toList [0x2B, 0x64, 0xB6, 0x04] =
        [0x02, 0x00, 0x00] ++ [0x02] := by
  decide +kernel

theorem witness_FrmDecodeAndRxFaults :
    longFrame.cfg.fbSize < longFrame.flen.toNat ∧
      ({ State.reset with flen := 1 }.flen.toNat ≤ 512 ∧ State.reset.fb.Lacks 0 1) ∧
      ({ framed replyEmptyKey with k1len := 65 }.HasFrame replyEmptyKey ∧ 26 ≤ replyEmptyKey.length ∧
        isEncrypted replyEmptyKey = true ∧ 64 < { framed replyEmptyKey with k1len := 65 }.k1len.toNat ∧
        validateFrame replyEmptyKey = .ok ()) ∧
      (lackingKey.HasFrame replyEmptyKey ∧ lackingKey.k1len.toNat ≤ lackingKey.cfg.keyMax ∧
        lackingKey.k2len.toNat ≤ lackingKey.cfg.keyMax ∧ lackingKey.k1b.Lacks 0 lackingKey.k1len.toNat) := by
  decide +kernel

/-- A frame that validates and is too short to decode. -/
def shortValid : List Byte := [0xFF, 0xFF, 0x55]

theorem witness_FrmRxValidatesThenDecodes :
    ((framed [0xFF, 0xFF]).HasFrame [0xFF, 0xFF] ∧ validateFrame [0xFF, 0xFF] = .error .tooShort) ∧
      ((framed [0xFF, 0xFE, 0x55]).HasFrame [0xFF, 0xFE, 0x55] ∧ validateFrame [0xFF, 0xFE, 0x55] = .error .crc16) ∧
      ((framed shortValid).HasFrame shortValid ∧ validateFrame shortValid = .ok () ∧
        decodeFrame shortValid [] [] 0 = .error .decodeShort) ∧
      ((framed frameF1).HasFrame frameF1 ∧ validateFrame frameF1 = .ok () ∧ isEncrypted frameF1 = false ∧
        decodeFrame frameF1 [] [] 0 = .ok (frameF1, true)) ∧
      ((framed replyEmptyKey).HasFrame replyEmptyKey ∧ validateFrame replyEmptyKey = .ok () ∧
        isEncrypted replyEmptyKey = true ∧ (framed replyEmptyKey).HasKeys [] [] ∧
        (decodeFrame replyEmptyKey [] [] 0).toBool = true) := by
  decide +kernel

theorem witness_FrmEncodeBuildsTheReply :
    (txState.txxlen.toNat ≤ 253 ∧ ([] : List Byte).length = txState.txxlen.toNat ∧ txState.txx.Holds 0 [] ∧
        dev1.length = 10 ∧ txState.txdev.Holds 0 dev1 ∧ txState.txctl = 0) ∧
      ({ txState with txctl := 1 }.txctl = 1 ∧ { txState with txctl := 1 }.HasKeys [] []) ∧
      (fullSmall.txxlen.toNat = 253 ∧ fullSmall.txx.Holds 0 (List.replicate 253 0x00) ∧
        fullSmall.txdev.Holds 0 (List.replicate 10 0x00)) := by
  decide +kernel

theorem witness_FrmEncodeFaultsInOrder :
    253 < { txState with txxlen := 254 }.txxlen.toNat ∧
      ({ longKey with txctl := 1 }.txxlen.toNat ≤ 253 ∧ { longKey with txctl := 1 }.txctl = 1 ∧
        longKey.cfg.keyMax < longKey.k1len.toNat) ∧
      ({ lackingKey with txctl := 1 }.txctl = 1 ∧ lackingKey.k1len.toNat ≤ lackingKey.cfg.keyMax ∧
        lackingKey.k2len.toNat ≤ lackingKey.cfg.keyMax ∧ lackingKey.k1b.Lacks 0 lackingKey.k1len.toNat) ∧
      (State.reset.txxlen.toNat ≤ 253 ∧ State.reset.txctl ≠ 1 ∧ State.reset.txdev.Lacks 0 10) ∧
      ({ txState with txxlen := 253 }.txxlen.toNat ≤ 253 ∧ txState.txx.Lacks 0 253) := by decide +kernel

theorem witness_EncodedReplyIsAccepted :
    (txState.replyArgs dev1 []).deviceId.length = 10 ∧ (txState.replyArgs dev1 []).extra.length ≤ 253 ∧
      (txState.replyArgs dev1 (List.replicate 253 0x00)).extra.length ≤ 253 := by decide +kernel

theorem witness_ReplyIsReceivedBack :
    txState.txxlen.toNat ≤ 253 ∧ ([] : List Byte).length = txState.txxlen.toNat ∧ txState.txx.Holds 0 [] ∧ dev1.length = 10 ∧
      txState.txdev.Holds 0 dev1 ∧ { txState with txctl := 1 }.HasKeys [] [] := by decide

theorem witness_DecodingTwiceUndoesTheDecoding :
    (decodeFrame frameF1 [] [] 0 = .ok (frameF1, true) ∧ isEncrypted frameF1 = false) ∧
      ((decodeFrame replyEmptyKey [] [] 0).toBool = true ∧ isEncrypted replyEmptyKey = true) := by decide +kernel

theorem witness_RegisterAccessKeepsToItsWidth :
    ((hosted (.write32 Reg.status.address 0xFFFFFFFF)).host = .write32 Reg.status.address 0xFFFFFFFF :: [] ∧
        Reg.status.access = .readOnly) ∧
      ((hosted (.write32 Reg.flen.address 0x00001FFF)).host = .write32 Reg.flen.address 0x00001FFF :: [] ∧
        Reg.flen.access = .readWrite) ∧
      (hosted (.read32 Reg.crc16.address)).host = .read32 Reg.crc16.address :: [] ∧
      (hosted (.read32 Reg.crc16.address)).readReg .crc16 = some 0x0000FFFF ∧
      ((hosted (.read32 (Reg.dgw 7).address)).host = .read32 (Reg.dgw 7).address :: [] ∧
        (hosted (.read32 (Reg.dgw 7).address)).readReg (.dgw 7) = none ∧ State.reset.dgv = false ∧ State.reset.dkv = false) := by
  decide

theorem witness_BufferAccessIsByteWise :
    (252 < Buf.txx.size State.reset.cfg ∧
        (hosted (.write8 (Buf.txx.base + 252) 0x5A)).host = .write8 (Buf.txx.base + 252) 0x5A :: []) ∧
      ((framed frameF1).buffer .fb).read 0 = some 0xAA ∧ (State.reset.buffer .fb).read 511 = none ∧
      511 < Buf.fb.size State.reset.cfg := by decide

theorem witness_RefusedAccessIsABusError :
    (hosted (.read16 0x0004)).host = .read16 0x0004 :: [] ∧ (∀ r : Reg, r.address ≠ 0x0080) ∧
      ∀ b : Buf, ¬ (b.base ≤ 0x1200 ∧ 0x1200 < b.base + b.size State.reset.cfg) := by
  refine ⟨rfl, fun r => ?_, fun b => ?_⟩
  · cases r <;> simp only [Reg.address] <;> omega
  · cases b <;> decide

theorem witness_HostReadsHaveNoSideEffect :
    (hosted (.read8 0x0004)).host = .read8 0x0004 :: [] ∧
      step (hosted (.read8 0x0004)) = .next { State.reset with reply := .busError } ∧
      (hosted (.read32 0x0010)).host = .read32 0x0010 :: [] ∧
      step (hosted (.read32 0x0010)) = .next { State.reset with reply := .data32 0x0000FFFF } ∧
      step { framed [0xAA] with host := [.read8 0x1000] } = .next { framed [0xAA] with reply := .data8 0xAA } ∧
      gives (step (hosted (.read8 0x1000))) (fun t => t.freeCount == 1) :=
  ⟨rfl, rfl, rfl, rfl, rfl, by decide⟩

end Sys2Proof.Tests
end

section
/-! PROOFS, 10_state.md R27. STATUS is packed from fields that do not overlap, so as a number it is their weighted sum. -/

namespace Sys2Proof.Machine

/-- The word is the number `k`, and its bits from `n` on are 0: what is packed into it so far. -/
def Packs (w : Word) (n k : Nat) : Prop := w.toNat = k ∧ k < 2 ^ n

/-- A field put above everything packed so far adds its weighted value. -/
theorem Packs.or_field {w : Word} {n k m : Nat} (h : Packs w n k) (x : BitVec m) (hm : n + m ≤ 32) :
    Packs (w ||| x.setWidth 32 <<< n) (n + m) (k + 2 ^ n * x.toNat) := by
  obtain ⟨rfl, hlt⟩ := h
  have hx := x.isLt
  have hfit : w.toNat + 2 ^ n * x.toNat < 2 ^ (n + m) := by
    calc w.toNat + 2 ^ n * x.toNat < 2 ^ n * (x.toNat + 1) := by rw [Nat.mul_succ]; omega
      _ ≤ 2 ^ n * 2 ^ m := Nat.mul_le_mul_left _ hx
      _ = 2 ^ (n + m) := (Nat.pow_add 2 n m).symm
  have hword : 2 ^ n * x.toNat < 2 ^ 32 := by
    have := Nat.pow_le_pow_right (n := 2) (by decide) hm
    omega
  have hshift : (x.setWidth 32 <<< n).toNat = 2 ^ n * x.toNat := by
    have hx32 : x.toNat < 2 ^ 32 := hx.trans_le (Nat.pow_le_pow_right (by decide) (by omega))
    rw [BitVec.toNat_shiftLeft, BitVec.toNat_setWidth, Nat.mod_eq_of_lt hx32, Nat.shiftLeft_eq, Nat.mul_comm,
      Nat.mod_eq_of_lt hword]
  refine ⟨?_, hfit⟩
  rw [BitVec.toNat_or, hshift, Nat.or_comm, ← Nat.two_pow_add_eq_or_of_lt hlt, Nat.add_comm]

/-- A flag put at the next bit. -/
theorem Packs.or_flagBit {w : Word} {n k : Nat} (h : Packs w n k) (b : Bool) (hn : n + 1 ≤ 32) :
    Packs (w ||| flagBit b n) (n + 1) (k + 2 ^ n * b.toNat) := by
  simpa [flagBit] using h.or_field (BitVec.ofBool b) hn

/-- The first flag stands alone at bit 0. -/
theorem packs_flagBit_zero (b : Bool) : Packs (flagBit b 0) 1 b.toNat := by cases b <;> exact ⟨rfl, by decide⟩

/-- STATUS packs its eight flags and ERR into 16 bits (10_state.md R24, R27). -/
theorem State.packs_status (s : State) :
    Packs s.status 16 (s.valid.toNat + 2 * s.crc8ok.toNat + 4 * s.rxenc.toNat + 8 * s.shav.toNat + 16 * s.dgv.toNat +
      32 * s.dkv.toNat + 64 * s.rc4v.toNat + 128 * s.fault.toNat + 256 * s.err.code.toNat) :=
  packs_flagBit_zero s.valid
    |>.or_flagBit s.crc8ok (by decide) |>.or_flagBit s.rxenc (by decide) |>.or_flagBit s.shav (by decide)
    |>.or_flagBit s.dgv (by decide) |>.or_flagBit s.dkv (by decide) |>.or_flagBit s.rc4v (by decide)
    |>.or_flagBit s.fault (by decide) |>.or_field s.err.code (by decide)

/-- STATUS reads 0 above its 16 bits (10_state.md R24). -/
theorem State.status_lt (s : State) : s.status.toNat < 2 ^ 16 := by
  obtain ⟨heq, hlt⟩ := s.packs_status
  exact heq ▸ hlt

/-- Settles O56: the codes are read off their table, and the number is what STATUS packs. -/
theorem statusIsTheSumOfItsFields : Obligations.StatusIsTheSumOfItsFields :=
  ⟨rfl, rfl, rfl, rfl, rfl, rfl, rfl, rfl, rfl, rfl, rfl, rfl, rfl, rfl, rfl, rfl, fun _ => rfl, fun _ => rfl,
    fun s => s.packs_status.1⟩

end Sys2Proof.Machine
end

section
/-! PROOFS, 10_state.md R49. The state after reset holds the values of R49's table, and recording the host's answer keeps them. -/

namespace Sys2Proof.Machine

/-- No flag and no code stands in STATUS after reset. -/
theorem State.resetWith_status (c : Config) : (State.resetWith c).status = 0 :=
  BitVec.eq_of_toNat_eq (State.resetWith c).packs_status.1

/-- Every buffer is without a value after reset. -/
theorem State.resetWith_buffer (c : Config) (b : Buf) : (State.resetWith c).buffer b = [] := by cases b <;> rfl

theorem State.resetWith_atResetValues (c : Config) : (State.resetWith c).AtResetValues :=
  ⟨State.resetWith_status c, rfl, rfl, rfl, rfl, rfl, rfl, rfl, rfl, rfl, rfl, rfl, rfl, rfl, rfl, rfl, rfl, rfl, rfl,
    rfl, fun _ => rfl, rfl, rfl, rfl, fun b i => by rw [State.resetWith_buffer]; rfl⟩

/-- The table speaks of the block alone, so the model's records of the host do not matter (log 11). -/
theorem State.resetBlock_atResetValues (s : State) : s.resetBlock.AtResetValues :=
  State.resetWith_atResetValues s.cfg

theorem State.AtResetValues.answer {s : State} (h : s.AtResetValues) (r : Reply) : (s.answer r).AtResetValues := h

/-- Settles O14: SRST and the platform's reset both end in `State.resetBlock`, which is at the reset values. -/
theorem resetValuesAreTheTable : Obligations.ResetValuesAreTheTable := by
  refine ⟨State.resetWith_atResetValues, fun s => ⟨_, rfl, s.resetBlock_atResetValues⟩, fun s es hs => ?_⟩
  exact ⟨_, step_event hs, (State.resetBlock_atResetValues _).answer .done⟩

end Sys2Proof.Machine
end

section
/-! PROOFS, 10_state.md R46. What a host write stores in each read-write register, what each register shows after it, and one step that
accesses a register. -/

namespace Sys2Proof.Machine

/-! ### One equation per writable field -/

@[simp] theorem State.writeReg_flen (t : State) (r : Reg) (v : Word) :
    (t.writeReg r v).flen = if r = .flen then v.setWidth 12 else t.flen := by cases r <;> rfl
@[simp] theorem State.writeReg_iter (t : State) (r : Reg) (v : Word) :
    (t.writeReg r v).iter = if r = .iter then v else t.iter := by cases r <;> rfl
@[simp] theorem State.writeReg_k1len (t : State) (r : Reg) (v : Word) :
    (t.writeReg r v).k1len = if r = .k1len then v.setWidth 9 else t.k1len := by cases r <;> rfl
@[simp] theorem State.writeReg_k2len (t : State) (r : Reg) (v : Word) :
    (t.writeReg r v).k2len = if r = .k2len then v.setWidth 9 else t.k2len := by cases r <;> rfl
@[simp] theorem State.writeReg_txcmd (t : State) (r : Reg) (v : Word) :
    (t.writeReg r v).txcmd = if r = .txcmd then v.setWidth 16 else t.txcmd := by cases r <;> rfl
@[simp] theorem State.writeReg_txstat (t : State) (r : Reg) (v : Word) :
    (t.writeReg r v).txstat = if r = .txstat then v.setWidth 8 else t.txstat := by cases r <;> rfl
@[simp] theorem State.writeReg_txreq (t : State) (r : Reg) (v : Word) :
    (t.writeReg r v).txreq = if r = .txreq then v.setWidth 8 else t.txreq := by cases r <;> rfl
@[simp] theorem State.writeReg_txver (t : State) (r : Reg) (v : Word) :
    (t.writeReg r v).txver = if r = .txver then v.setWidth 8 else t.txver := by cases r <;> rfl
@[simp] theorem State.writeReg_txkeyid (t : State) (r : Reg) (v : Word) :
    (t.writeReg r v).txkeyid = if r = .txkeyid then v.setWidth 8 else t.txkeyid := by cases r <;> rfl
@[simp] theorem State.writeReg_txctl (t : State) (r : Reg) (v : Word) :
    (t.writeReg r v).txctl = if r = .txctl then v.setWidth 1 else t.txctl := by cases r <;> rfl
@[simp] theorem State.writeReg_txxlen (t : State) (r : Reg) (v : Word) :
    (t.writeReg r v).txxlen = if r = .txxlen then v.setWidth 8 else t.txxlen := by cases r <;> rfl

/-! ### What registers and buffers show -/

/-- A value cut to `n` bits and shown in 32 is its low `n` bits. -/
theorem setWidth_low (v : Word) (n : Nat) : (v.setWidth n).setWidth 32 = BitVec.ofNat 32 (v.toNat % 2 ^ n) := by
  apply BitVec.eq_of_toNat_eq
  simp

/-- A field shown in 32 bits keeps to its own width. -/
theorem toNat_setWidth_lt {n : Nat} (x : BitVec n) (m : Nat) : (x.setWidth m).toNat < 2 ^ n := by
  rw [BitVec.toNat_setWidth]
  exact (Nat.mod_le _ _).trans_lt x.isLt

/-- A register shows 0 in every bit above its width (10_state.md R46). -/
theorem State.readReg_lt_width {s : State} {r : Reg} {v : Word} (h : s.readReg r = some v) : v.toNat < 2 ^ r.width := by
  cases r with
  | cmd | iter | dgw _ | dkw _ => exact v.isLt
  | status =>
    obtain rfl := Option.some.inj h
    exact s.status_lt
  | flen | crc16 | sum8 | ksb | k1len | k2len | txcmd | txstat | txreq | txver | txkeyid | txctl | txxlen =>
    obtain rfl := Option.some.inj h
    exact toNat_setWidth_lt _ 32

/-- A write of a read-only register stores nothing (10_state.md R47). -/
theorem State.writeReg_readOnly {r : Reg} (h : r.access = .readOnly) (s : State) (v : Word) : s.writeReg r v = s := by
  cases r with
  | status | crc16 | sum8 | ksb | dgw _ | dkw _ => rfl
  | cmd | flen | iter | k1len | k2len | txcmd | txstat | txreq | txver | txkeyid | txctl | txxlen => cases h

/-- A read-write register shows the low bits of the value written to it (10_state.md R46). -/
theorem State.readReg_writeReg_same {r : Reg} (h : r.access = .readWrite) (s : State) (v : Word) :
    (s.writeReg r v).readReg r = some (BitVec.ofNat 32 (v.toNat % 2 ^ r.width)) := by
  cases r with
  | cmd | status | crc16 | sum8 | ksb | dgw _ | dkw _ => cases h
  | iter => simpa [State.readReg, Reg.width] using setWidth_low v 32
  | flen | k1len | k2len | txcmd | txstat | txreq | txver | txkeyid | txctl | txxlen =>
    exact congrArg some (setWidth_low v _)

/-- Every other register shows what it did (10_state.md R46). -/
theorem State.readReg_writeReg_of_ne {r r' : Reg} (h : r' ≠ r) (s : State) (v : Word) :
    (s.writeReg r v).readReg r' = s.readReg r' := by
  have hne := h.symm
  cases r' with
  | cmd => rfl
  | status => simp [State.readReg, State.status]
  | crc16 | sum8 | ksb | dgw _ | dkw _ => simp [State.readReg]
  | flen | iter | k1len | k2len | txcmd | txstat | txreq | txver | txkeyid | txctl | txxlen =>
    simp [State.readReg, hne]

@[simp] theorem State.writeReg_buffer (s : State) (r : Reg) (v : Word) (b : Buf) :
    (s.writeReg r v).buffer b = s.buffer b := by cases b <;> simp [State.buffer]

@[simp] theorem State.answer_buffer (s : State) (a : Reply) (b : Buf) : (s.answer a).buffer b = s.buffer b := by
  cases b <;> rfl

@[simp] theorem State.answer_readReg (s : State) (a : Reply) (r : Reg) : (s.answer a).readReg r = s.readReg r := by
  cases r <;> rfl

/-- The events still to come are no part of what a register shows. -/
theorem State.withHost_readReg (s : State) (es : List HostEvent) (r : Reg) :
    State.readReg { s with host := es } r = s.readReg r := by cases r <;> rfl

/-- Nor are they part of a buffer. -/
theorem State.withHost_buffer (s : State) (es : List HostEvent) (b : Buf) :
    State.buffer { s with host := es } b = s.buffer b := by cases b <;> rfl

/-- A word view whose flag is 0 shows no value (10_state.md R39, R40). -/
@[simp] theorem wordView_false (d : Option (Vector Byte 32)) (k : Fin 8) : wordView false d k = none := rfl

/-! ### One step that accesses a register -/

@[simp] theorem regAt_address (r : Reg) : regAt r.address = some r := regAt_eq_some.2 rfl

/-- No two registers share an address (10_state.md R45). -/
theorem Reg.address_injective : Function.Injective Reg.address := fun r _ h =>
  Option.some.inj ((regAt_address r).symm.trans (regAt_eq_some.2 h))

/-- A write at the address of a register other than CMD is a write of that register. -/
theorem State.hostWrite32_register {r : Reg} (h : r ≠ .cmd) (s : State) (v : Word) :
    s.hostWrite32 r.address v = .next ((s.writeReg r v).answer .done) := by
  rcases s.hostWrite32_cases r.address v with ⟨hnone, -⟩ | ⟨hzero, -⟩ | ⟨_, -, haddr, hw⟩
  · rw [regAt_address] at hnone
    cases hnone
  · exact absurd (Reg.address_injective (a₂ := .cmd) hzero) h
  · rwa [← Reg.address_injective haddr] at hw

/-- One step that writes a register other than CMD. -/
theorem step_write32_register {s : State} {r : Reg} {v : Word} {es : List HostEvent}
    (hs : s.host = .write32 r.address v :: es) (h : r ≠ .cmd) :
    step s = .next ((State.writeReg { s with host := es } r v).answer .done) :=
  (step_event hs).trans (State.hostWrite32_register h _ v)

/-- A read at a register's address answers the value that the register shows. -/
theorem State.hostRead32_of_some {s : State} {r : Reg} {v : Word} (h : s.readReg r = some v) :
    s.hostRead32 r.address = s.answer (.data32 v) := by
  simp [State.hostRead32, h]

/-- A read of a register whose value is open answers a free value and counts it (log 5). -/
theorem State.hostRead32_of_none {s : State} {r : Reg} (h : s.readReg r = none) :
    s.hostRead32 r.address = (s.answer (.data32 (Config.freeWord s.freeCount r.address))).takeFree := by
  simp [State.hostRead32, h]

/-- One step that reads a register which shows a value. -/
theorem step_read32_of_some {s : State} {r : Reg} {v : Word} {es : List HostEvent}
    (hs : s.host = .read32 r.address :: es) (hv : s.readReg r = some v) :
    step s = .next { s with host := es, reply := .data32 v } :=
  (step_event hs).trans (congrArg _ (State.hostRead32_of_some ((s.withHost_readReg es r).trans hv)))

/-- One step that reads a register whose value is open. -/
theorem step_read32_of_none {s : State} {r : Reg} {es : List HostEvent}
    (hs : s.host = .read32 r.address :: es) (hv : s.readReg r = none) :
    step s = .next { s with
      host := es, reply := .data32 (Config.freeWord s.freeCount r.address), freeCount := s.freeCount + 1 } :=
  (step_event hs).trans (congrArg _ (State.hostRead32_of_none ((s.withHost_readReg es r).trans hv)))

/-- Settles O57: one step lemma for a write, one for each kind of read, and what the registers show after a write. -/
theorem registerAccessKeepsToItsWidth : Obligations.RegisterAccessKeepsToItsWidth := by
  intro s r es
  refine ⟨fun v hs hro => ?readOnly, fun v hs hrw => ?readWrite, fun v hs hv => ?value, fun hs hv => ?openView,
    fun k => ?flags, rfl⟩
  case readOnly =>
    have hcmd : r ≠ .cmd := by rintro rfl; cases hro
    rw [step_write32_register hs hcmd, State.writeReg_readOnly hro]
    rfl
  case readWrite =>
    have hcmd : r ≠ .cmd := by rintro rfl; cases hrw
    refine ⟨_, step_write32_register hs hcmd, by simp, rfl, ?same, fun _ hne => ?other, fun b => ?buffer, by simp, by simp,
      by simp, by simp, by simp, by simp, by simp, by simp⟩
    case same => rw [State.answer_readReg, State.readReg_writeReg_same hrw]
    case other => rw [State.answer_readReg, State.readReg_writeReg_of_ne hne, State.withHost_readReg]
    case buffer => rw [State.answer_buffer, State.writeReg_buffer, State.withHost_buffer]
  case value => exact ⟨step_read32_of_some hs hv, State.readReg_lt_width hv⟩
  case openView => exact ⟨_, _, step_read32_of_none hs hv, rfl, rfl⟩
  case flags => constructor <;> intro hflag <;> simp [State.readReg, hflag]

end Sys2Proof.Machine
end

section
/-! PROOFS, 20_memory.md R64. Each kind of access where the window has nothing to answer it, and the step that refuses it. -/

namespace Sys2Proof.Machine

/-! ### One refusal per kind of access that the window can take -/

/-- A 32-bit read at no register's address is refused. -/
theorem State.hostRead32_refused {a : Nat} (h : ∀ r : Reg, r.address ≠ a) (s : State) :
    s.hostRead32 a = s.refuseAccess := by
  simp [State.hostRead32, regAt_eq_none.2 h]

/-- A 32-bit write at no register's address is refused; in particular it runs no command. -/
theorem State.hostWrite32_refused {a : Nat} (h : ∀ r : Reg, r.address ≠ a) (s : State) (v : Word) :
    s.hostWrite32 a v = .next s.refuseAccess := by
  simp [State.hostWrite32, regAt_eq_none.2 h]

/-- An 8-bit read outside every buffer is refused. -/
theorem State.hostRead8_refused {s : State} {a : Nat} (h : ∀ b : Buf, ¬ (b.base ≤ a ∧ a < b.base + b.size s.cfg)) :
    s.hostRead8 a = s.refuseAccess := by
  simp [State.hostRead8, bufAt_eq_none.2 h]

/-- An 8-bit write outside every buffer is refused. -/
theorem State.hostWrite8_refused {s : State} {a : Nat} (h : ∀ b : Buf, ¬ (b.base ≤ a ∧ a < b.base + b.size s.cfg))
    (v : Byte) : s.hostWrite8 a v = s.refuseAccess := by
  simp [State.hostWrite8, bufAt_eq_none.2 h]

/-! ### The step -/

/-- One step whose event is refused: the event is taken, and only the answer is new (log 3). -/
theorem step_of_refused {s : State} {e : HostEvent} {es : List HostEvent} (hs : s.host = e :: es)
    (he : State.perform { s with host := es } e = .next (State.refuseAccess { s with host := es })) :
    step s = .next { s with host := es, reply := .busError } :=
  (step_event hs).trans he

/-- Settles O59: a 16-bit access is refused everywhere, a 32-bit one where no register is, an 8-bit one where no buffer is. -/
theorem refusedAccessIsABusError : Obligations.RefusedAccessIsABusError := by
  intro s es e hs h
  apply step_of_refused hs
  rcases h with ⟨a, rfl⟩ | ⟨a, v, rfl⟩ | ⟨a, rfl | ⟨v, rfl⟩, hreg⟩ | ⟨a, rfl | ⟨v, rfl⟩, hbuf⟩
  · rfl
  · rfl
  · exact congrArg _ (State.hostRead32_refused hreg _)
  · exact State.hostWrite32_refused hreg _ v
  · exact congrArg _ (State.hostRead8_refused (s := { s with host := es }) hbuf)
  · exact congrArg _ (State.hostWrite8_refused (s := { s with host := es }) hbuf v)

end Sys2Proof.Machine
end

section
/-! PROOFS, 30_encoding.md R101 to R104. The bits under a row's mask are OP and the fields that must be 0; OP picks at most one
row, and the decoder of that row's form answers one of its operations or rejects the word. -/

namespace Sys2Proof

/-! ### The bits under a row's mask -/

/-- Two words are equal exactly when their three fields are (30_encoding.md R100). -/
theorem eq_iff_fields {w w' : Word} :
    w = w' ↔ opField w = opField w' ∧ aField w = aField w' ∧ bField w = bField w' := by
  refine ⟨fun h => h ▸ ⟨rfl, rfl, rfl⟩, fun ⟨hop, ha, hb⟩ => ?_⟩
  rw [← commandWord_fields w, ← commandWord_fields w', hop, ha, hb]

@[simp] theorem opField_and (w m : Word) : opField (w &&& m) = opField w &&& opField m := BitVec.extractLsb'_and
@[simp] theorem aField_and (w m : Word) : aField (w &&& m) = aField w &&& aField m := BitVec.extractLsb'_and
@[simp] theorem bField_and (w m : Word) : bField (w &&& m) = bField w &&& bField m := BitVec.extractLsb'_and

/-- Field B is the four bits that form imm8 wants 0, above the immediate byte. -/
theorem immediate_split (b : BitVec 12) : b.extractLsb' 8 4 ++ b.extractLsb' 0 8 = b :=
  (BitVec.extractLsb'_append_extractLsb'_eq_extractLsb' (Nat.zero_add 8).symm).trans BitVec.extractLsb'_eq_self

/-- With those four bits 0, field B holds its immediate byte and nothing else. -/
theorem zero_append_immediate {b : BitVec 12} (h : b.extractLsb' 8 4 = 0) : 0#4 ++ b.extractLsb' 0 8 = b :=
  (congrArg (· ++ b.extractLsb' 0 8) h.symm).trans (immediate_split b)

/-- With those four bits 0, the immediate byte, widened, is field B. -/
theorem setWidth_immediate {b : BitVec 12} (h : b.extractLsb' 8 4 = 0) : (b.extractLsb' 0 8).setWidth 12 = b :=
  (BitVec.setWidth_eq_append (by decide)).trans (zero_append_immediate h)

/-- The mask of form imm8 keeps the top four bits of field B. -/
theorem and_immediateMask_eq_zero {b : BitVec 12} : b &&& 0xF00#12 = 0#12 ↔ b.extractLsb' 8 4 = 0#4 := by
  constructor <;> intro h
  · calc b.extractLsb' 8 4 = b.extractLsb' 8 4 &&& (0xF00#12).extractLsb' 8 4 := BitVec.and_allOnes.symm
      _ = (b &&& 0xF00#12).extractLsb' 8 4 := BitVec.extractLsb'_and.symm
      _ = 0 := by rw [h]; rfl
  · calc b &&& 0xF00#12 = (0#4 ++ b.extractLsb' 0 8) &&& (BitVec.allOnes 4 ++ 0#8) := by
          rw [zero_append_immediate h]; rfl
      _ = 0 := by rw [BitVec.and_append, BitVec.zero_and, BitVec.and_zero]; rfl

/-- The fields that the form says must be 0 are 0 in the word (30_encoding.md R101, R102). -/
def Form.ZeroFields (w : Word) : Form → Prop
  | .none => aField w = 0 ∧ bField w = 0
  | .imm8 => aField w = 0 ∧ (bField w).extractLsb' 8 4 = 0
  | .range => True
  | .off => bField w = 0

/-! Each form's mask is all ones over OP and over the bits that must be 0 (30_encoding.md R104). -/

theorem Form.mask_none : Form.none.mask = commandWord 0xFF 0xFFF 0xFFF := rfl
theorem Form.mask_imm8 : Form.imm8.mask = commandWord 0xFF 0xFFF 0xF00 := rfl
theorem Form.mask_range : Form.range.mask = commandWord 0xFF 0 0 := rfl
theorem Form.mask_off : Form.off.mask = commandWord 0xFF 0 0xFFF := rfl

/-- A row matches a word exactly when OP is the row's and the must-be-zero fields of its form are 0. -/
theorem OpRow.matches_iff {r : OpRow} {w : Word} : r.matches w ↔ opField w = r.op ∧ r.form.ZeroFields w := by
  have hop (x : Byte) : x &&& 0xFF#8 = x := BitVec.and_allOnes
  have hfield (x : BitVec 12) : x &&& 0xFFF#12 = x := BitVec.and_allOnes
  rw [OpRow.matches, eq_iff_fields]
  cases r.form with
  | none => simp [Form.mask_none, Form.ZeroFields, hop, hfield]
  | imm8 => simp [Form.mask_imm8, Form.ZeroFields, hop, hfield, and_immediateMask_eq_zero]
  | range => simp [Form.mask_range, Form.ZeroFields, hop]
  | off => simp [Form.mask_off, Form.ZeroFields, hop, hfield]

/-! ### What the decoder answers -/

/-- What the operation's word is made of: the row's OP and the two operand fields (30_encoding.md R100). -/
structure Instr.Carries (i : Instr) (r : OpRow) (a b : BitVec 12) : Prop where
  row : i.row = r
  fieldA : i.fieldA = a
  fieldB : i.fieldB = b

/-- An operation that carries a word's three fields encodes to the word. -/
theorem Instr.Carries.encode_eq {i : Instr} {r : OpRow} {w : Word} (h : i.Carries r (aField w) (bField w))
    (hop : opField w = r.op) : encode i = w := by
  rw [encode, h.row, h.fieldA, h.fieldB, ← hop, commandWord_fields]

/-- What a word whose OP is the row's decodes to: an operation of the row that encodes to the word, or, when the row
does not match, the rejection of its operand fields (30_encoding.md R103). -/
def ReadsRow (w : Word) (r : OpRow) (d : Except DecodeError Instr) : Prop :=
  (r.matches w ∧ ∃ i, d = .ok i ∧ i.row = r ∧ encode i = w) ∨
    (¬ r.matches w ∧ d = .error (.operandNotZero (opField w)))

/-- A decoder reads a row when it checks the must-be-zero fields of the row's form and takes the operands from the
word's fields. -/
theorem readsRow_ite {w : Word} {r : OpRow} {P : Prop} [Decidable P] {i : Instr} (hop : opField w = r.op)
    (hzero : r.form.ZeroFields w ↔ P) (hi : P → i.Carries r (aField w) (bField w)) :
    ReadsRow w r (if P then .ok i else .error (.operandNotZero (opField w))) := by
  have hmatches : r.matches w ↔ P := by rw [OpRow.matches_iff, hzero, and_iff_right hop]
  split
  · next hP => exact .inl ⟨hmatches.2 hP, i, rfl, (hi hP).row, (hi hP).encode_eq hop⟩
  · next hP => exact .inr ⟨mt hmatches.1 hP, rfl⟩

section FormDecoders
variable {w : Word} {op : Byte} {m : String}

theorem decodeNone_readsRow {i : Instr} (hop : opField w = op) (hi : i.Carries ⟨op, m, .none⟩ 0 0) :
    ReadsRow w ⟨op, m, .none⟩ (decodeNone w i) := by
  refine readsRow_ite hop .rfl fun ⟨hA, hB⟩ => ?_
  rwa [hA, hB]

theorem decodeImm8_readsRow {mk : Byte → Instr} (hop : opField w = op)
    (hmk : ∀ imm, (mk imm).Carries ⟨op, m, .imm8⟩ 0 (imm.setWidth 12)) :
    ReadsRow w ⟨op, m, .imm8⟩ (decodeImm8 w mk) := by
  refine readsRow_ite hop .rfl fun ⟨hA, hB⟩ => ?_
  have h := hmk ((bField w).extractLsb' 0 8)
  rwa [setWidth_immediate hB, ← hA] at h

theorem decodeRange_readsRow {mk : Nat → Nat → Instr} (hop : opField w = op)
    (hmk : ∀ off len, (mk off len).Carries ⟨op, m, .range⟩ (BitVec.ofNat 12 off) (BitVec.ofNat 12 len)) :
    ReadsRow w ⟨op, m, .range⟩ (decodeRange w mk) :=
  readsRow_ite (P := True) hop .rfl fun _ => by simpa using hmk (aField w).toNat (bField w).toNat

theorem decodeOff_readsRow {mk : Nat → Instr} (hop : opField w = op)
    (hmk : ∀ off, (mk off).Carries ⟨op, m, .off⟩ (BitVec.ofNat 12 off) 0) :
    ReadsRow w ⟨op, m, .off⟩ (decodeOff w mk) := by
  refine readsRow_ite hop .rfl fun hB => ?_
  rw [hB]
  simpa using hmk (aField w).toNat

end FormDecoders

open Laws in
/-- The decoder looks at OP first: it reads the one row that has this OP, or finds no such row (30_encoding.md R103,
R105). -/
theorem decode_cases (w : Word) :
    (∃ r ∈ opcodeMap, opField w = r.op ∧ ReadsRow w r (decode w)) ∨
      (opField w ∉ opcodeMap.map OpRow.op ∧ decode w = .error (.unassignedOpcode (opField w))) := by
  unfold decode
  split
  · next hop => exact .inl ⟨_, RowListed.nop, hop, decodeNone_readsRow hop ⟨rfl, rfl, rfl⟩⟩
  · next hop => exact .inl ⟨_, RowListed.srst, hop, decodeNone_readsRow hop ⟨rfl, rfl, rfl⟩⟩
  · next hop => exact .inl ⟨_, RowListed.crc16Init, hop, decodeNone_readsRow hop ⟨rfl, rfl, rfl⟩⟩
  · next hop => exact .inl ⟨_, RowListed.crc16Updb 0, hop, decodeImm8_readsRow hop fun _ => ⟨rfl, rfl, rfl⟩⟩
  · next hop => exact .inl ⟨_, RowListed.crc16Updr 0 0, hop, decodeRange_readsRow hop fun _ _ => ⟨rfl, rfl, rfl⟩⟩
  · next hop => exact .inl ⟨_, RowListed.crc16Put 0, hop, decodeOff_readsRow hop fun _ => ⟨rfl, rfl, rfl⟩⟩
  · next hop => exact .inl ⟨_, RowListed.sum8Init, hop, decodeNone_readsRow hop ⟨rfl, rfl, rfl⟩⟩
  · next hop => exact .inl ⟨_, RowListed.sum8Updb 0, hop, decodeImm8_readsRow hop fun _ => ⟨rfl, rfl, rfl⟩⟩
  · next hop => exact .inl ⟨_, RowListed.sum8Updr 0 0, hop, decodeRange_readsRow hop fun _ _ => ⟨rfl, rfl, rfl⟩⟩
  · next hop => exact .inl ⟨_, RowListed.sum8Put 0, hop, decodeOff_readsRow hop fun _ => ⟨rfl, rfl, rfl⟩⟩
  · next hop => exact .inl ⟨_, RowListed.shaInit, hop, decodeNone_readsRow hop ⟨rfl, rfl, rfl⟩⟩
  · next hop => exact .inl ⟨_, RowListed.shaUpdb 0, hop, decodeImm8_readsRow hop fun _ => ⟨rfl, rfl, rfl⟩⟩
  · next hop => exact .inl ⟨_, RowListed.shaUpdr 0 0, hop, decodeRange_readsRow hop fun _ _ => ⟨rfl, rfl, rfl⟩⟩
  · next hop => exact .inl ⟨_, RowListed.shaUpdk1, hop, decodeNone_readsRow hop ⟨rfl, rfl, rfl⟩⟩
  · next hop => exact .inl ⟨_, RowListed.shaUpdk2, hop, decodeNone_readsRow hop ⟨rfl, rfl, rfl⟩⟩
  · next hop => exact .inl ⟨_, RowListed.shaUpddg, hop, decodeNone_readsRow hop ⟨rfl, rfl, rfl⟩⟩
  · next hop => exact .inl ⟨_, RowListed.shaFin, hop, decodeNone_readsRow hop ⟨rfl, rfl, rfl⟩⟩
  · next hop => exact .inl ⟨_, RowListed.kdfRun, hop, decodeNone_readsRow hop ⟨rfl, rfl, rfl⟩⟩
  · next hop => exact .inl ⟨_, RowListed.kdfLatch, hop, decodeNone_readsRow hop ⟨rfl, rfl, rfl⟩⟩
  · next hop => exact .inl ⟨_, RowListed.rc4Ksa, hop, decodeNone_readsRow hop ⟨rfl, rfl, rfl⟩⟩
  · next hop => exact .inl ⟨_, RowListed.rc4Xorr 0 0, hop, decodeRange_readsRow hop fun _ _ => ⟨rfl, rfl, rfl⟩⟩
  · next hop => exact .inl ⟨_, RowListed.rc4Gen, hop, decodeNone_readsRow hop ⟨rfl, rfl, rfl⟩⟩
  · next hop => exact .inl ⟨_, RowListed.frmValidate, hop, decodeNone_readsRow hop ⟨rfl, rfl, rfl⟩⟩
  · next hop => exact .inl ⟨_, RowListed.frmDecode, hop, decodeNone_readsRow hop ⟨rfl, rfl, rfl⟩⟩
  · next hop => exact .inl ⟨_, RowListed.frmRx, hop, decodeNone_readsRow hop ⟨rfl, rfl, rfl⟩⟩
  · next hop => exact .inl ⟨_, RowListed.frmEncode, hop, decodeNone_readsRow hop ⟨rfl, rfl, rfl⟩⟩
  · refine .inr ⟨?_, rfl⟩
    simp_all [opcodeMap, Instr.row]

/-! ### Rows exclude each other -/

/-- No two rows of the opcode map have the same OP (30_encoding.md R104). -/
theorem opcodeMap_op_injective {r r' : OpRow} (hr : r ∈ opcodeMap) (hr' : r' ∈ opcodeMap) (h : r.op = r'.op) : r = r' :=
  List.inj_on_of_nodup_map (f := OpRow.op) (by decide) hr hr' h

/-- Two rows that match one word are the same row (30_encoding.md R103). -/
theorem OpRow.matches_unique {r r' : OpRow} {w : Word} (hr : r ∈ opcodeMap) (hr' : r' ∈ opcodeMap) (h : r.matches w)
    (h' : r'.matches w) : r = r' := by
  obtain ⟨hop, -⟩ := OpRow.matches_iff.1 h
  obtain ⟨hop', -⟩ := OpRow.matches_iff.1 h'
  exact opcodeMap_op_injective hr hr' (hop.symm.trans hop')

/-- Settles O3: OP picks the row, whose form's decoder then accepts or rejects the operand fields. -/
theorem everyWordIsOneOperationOrIllegal : Obligations.EveryWordIsOneOperationOrIllegal := by
  refine fun w => ⟨fun r hr r' hr' => OpRow.matches_unique hr hr', ?_⟩
  rcases decode_cases w with ⟨r, hr, hop, ⟨hmatch, hdecode⟩ | ⟨hmatch, hdecode⟩⟩ | ⟨hop, hdecode⟩
  · exact .inl ⟨r, hr, hmatch, hdecode⟩
  · refine .inr ⟨fun r' hr' h' => ?_, .inr ⟨hop ▸ List.mem_map_of_mem hr, hdecode⟩⟩
    have hsame := opcodeMap_op_injective hr' hr ((OpRow.matches_iff.1 h').1.symm.trans hop)
    exact hmatch (hsame ▸ h')
  · refine .inr ⟨fun r hr h => hop ?_, .inl ⟨hop, hdecode⟩⟩
    exact (OpRow.matches_iff.1 h).1 ▸ List.mem_map_of_mem hr

end Sys2Proof
end

section
/-! PROOFS, 30_encoding.md R102. A word that matches no row decodes to an error, and the step that writes it to CMD
faults. -/

namespace Sys2Proof.Machine

/-- A word of no row of the opcode map decodes to an error (30_encoding.md R102, R105). -/
theorem decode_error_of_no_row {w : Word} (h : ∀ r ∈ opcodeMap, ¬ r.matches w) : ∃ e, decode w = .error e := by
  rcases (everyWordIsOneOperationOrIllegal w).2 with ⟨r, hr, hmatch, -⟩ | ⟨-, ⟨-, he⟩ | ⟨-, he⟩⟩
  · exact absurd hmatch (h r hr)
  · exact ⟨_, he⟩
  · exact ⟨_, he⟩

/-- A word that decodes to an error is the fault F_OPCODE (30_encoding.md R102, R105). -/
theorem State.command_of_decode_error {w : Word} {e : DecodeError} (h : decode w = .error e) (s : State) :
    s.command w = .next (s.raise .opcode) := by
  rw [State.command, h]

/-- One step that writes a word to CMD runs it as a command, with the write answered (10_state.md R23; log 2, log 3). -/
theorem step_write32_cmd {s : State} {w : Word} {es : List HostEvent} (hs : s.host = .write32 0x0000 w :: es) :
    step s = (State.answer { s with host := es } .done).command w :=
  step_event hs

/-- Settles O6: the word decodes to an error, and its command raises F_OPCODE on the state that answered the write. -/
theorem illegalWordIsOpcodeFault : Obligations.IllegalWordIsOpcodeFault := by
  intro s w es hs hrow
  obtain ⟨e, he⟩ := decode_error_of_no_row hrow
  rw [step_write32_cmd hs, State.command_of_decode_error he]
  rfl

end Sys2Proof.Machine
end

section
/-! PROOFS, 30_encoding.md R100 to R102. The word of each operand form from its fields: what it decodes to, and that the
other words of its opcode are illegal. -/

namespace Sys2Proof.Machine

/-! ### The words as fields -/

/-- The word of a range operand has its fields in place (30_encoding.md R100, R101). -/
theorem rangeWord_eq_commandWord (n : Word) (a b : BitVec 12) : rangeWord n a b = commandWord (n.setWidth 8) a b := by
  apply BitVec.eq_of_getLsbD_eq
  intro i hi
  simp only [BitVec.getLsbD_or, BitVec.getLsbD_shiftLeft, BitVec.getLsbD_setWidth, getLsbD_commandWord]
  by_cases hb : i < 12
  · simp [hb, hi, show i < 24 by omega]
  · have hb0 : b.getLsbD i = false := BitVec.getLsbD_of_ge b i (by omega)
    by_cases ha : i - 12 < 12
    · simp [hb, hb0, ha, hi, show i < 24 by omega, show i - 12 < 32 by omega]
    · have ha0 : a.getLsbD (i - 12) = false := BitVec.getLsbD_of_ge a (i - 12) (by omega)
      simp [hb, hb0, ha, ha0, hi, show ¬ i < 24 by omega, show i - 12 - 12 = i - 24 by omega, show i - 24 < 8 by omega]

/-- The word of an offset operand is the one of a range operand with B = 0. -/
theorem offWord_eq_commandWord (n : Word) (a : BitVec 12) : offWord n a = commandWord (n.setWidth 8) a 0 :=
  BitVec.or_zero.symm.trans (rangeWord_eq_commandWord n a 0)

/-- An immediate byte put into the word that has no operand stands in field B. -/
theorem commandWord_or_immediate (op imm : Byte) :
    commandWord op 0 0 ||| imm.setWidth 32 = commandWord op 0 (imm.setWidth 12) := by
  apply BitVec.eq_of_getLsbD_eq
  intro i hi
  simp only [BitVec.getLsbD_or, BitVec.getLsbD_setWidth, getLsbD_commandWord]
  by_cases hb : i < 12
  · simp [hb, hi]
  · simp [hb, BitVec.getLsbD_of_ge imm i (by omega)]

/-! ### The legal words of an opcode -/

/-- A word whose OP is a row's but which does not match that row is the fault F_OPCODE (30_encoding.md R102, R103). -/
theorem State.command_of_not_matches {r : OpRow} {w : Word} (hr : r ∈ opcodeMap) (hop : opField w = r.op)
    (hw : ¬ r.matches w) (s : State) : s.command w = .next (s.raise .opcode) := by
  obtain ⟨e, he⟩ : ∃ e, decode w = .error e := by
    refine decode_error_of_no_row fun r' hr' h' => hw ?_
    have hsame := opcodeMap_op_injective hr' hr ((OpRow.matches_iff.1 h').1.symm.trans hop)
    exact hsame ▸ h'
  exact State.command_of_decode_error he s

section OperandForms
variable {op : Byte} {m : String}

/-- Form none has one legal word. -/
theorem legalOnly_none {w0 : Word} (hr : ⟨op, m, .none⟩ ∈ opcodeMap) (hw0 : commandWord op 0 0 = w0) :
    LegalOnly op (fun w => w = w0) := by
  refine fun w hop hw => State.command_of_not_matches hr hop fun hmatch => hw ?_
  obtain ⟨-, hA, hB⟩ := OpRow.matches_iff.1 hmatch
  calc w = commandWord (opField w) (aField w) (bField w) := (commandWord_fields w).symm
    _ = w0 := by rw [hop, hA, hB, hw0]

/-- Form imm8 has one legal word for each byte. -/
theorem legalOnly_imm8 {w0 : Word} (hr : ⟨op, m, .imm8⟩ ∈ opcodeMap) (hw0 : commandWord op 0 0 = w0) :
    LegalOnly op (fun w => ∃ imm : Byte, w = w0 ||| imm.setWidth 32) := by
  refine fun w hop hw => State.command_of_not_matches hr hop fun hmatch => hw ⟨(bField w).extractLsb' 0 8, ?_⟩
  obtain ⟨-, hA, hB⟩ := OpRow.matches_iff.1 hmatch
  calc w = commandWord (opField w) (aField w) (bField w) := (commandWord_fields w).symm
    _ = w0 ||| ((bField w).extractLsb' 0 8).setWidth 32 := by
      rw [← hw0, commandWord_or_immediate, setWidth_immediate hB, hop, hA]

/-! ### The operation a word carries

`hdec` says which form's decoder OP picks; `hi` and `hmk` say that the operation's word is made of OP and the operands. -/

/-- An operation that carries the fields of a word which decodes to it. -/
theorem encodedAs_of_carries {i : Instr} {f : Form} {a b : BitVec 12} (hi : i.Carries ⟨op, m, f⟩ a b)
    (hdec : decode (commandWord op a b) = .ok i) : EncodedAs i (commandWord op a b) :=
  ⟨hdec, by rw [encode, hi.row, hi.fieldA, hi.fieldB]⟩

theorem encodedAs_none {i : Instr} {w0 : Word} (hi : i.Carries ⟨op, m, .none⟩ 0 0)
    (hdec : ∀ w, opField w = op → decode w = decodeNone w i) (hw0 : commandWord op 0 0 = w0) : EncodedAs i w0 := by
  rw [← hw0]
  refine encodedAs_of_carries hi ?_
  rw [hdec _ (opField_commandWord _ _ _), decodeNone_eq_ok]
  exact ⟨aField_commandWord _ _ _, bField_commandWord _ _ _, rfl⟩

theorem encodedAs_imm8 {mk : Byte → Instr} {w0 : Word}
    (hmk : ∀ imm, (mk imm).Carries ⟨op, m, .imm8⟩ 0 (imm.setWidth 12))
    (hdec : ∀ w, opField w = op → decode w = decodeImm8 w mk) (hw0 : commandWord op 0 0 = w0) (imm : Byte) :
    EncodedAs (mk imm) (w0 ||| imm.setWidth 32) := by
  have htop : (imm.setWidth 12).extractLsb' 8 4 = 0 := by
    apply BitVec.eq_of_getLsbD_eq
    intro i hi
    simp
  have hlow : (imm.setWidth 12).extractLsb' 0 8 = imm := by
    apply BitVec.eq_of_getLsbD_eq
    intro i hi
    simp [hi, show i < 12 by omega]
  rw [← hw0, commandWord_or_immediate]
  refine encodedAs_of_carries (hmk imm) ?_
  rw [hdec _ (opField_commandWord _ _ _), decodeImm8_eq_ok, aField_commandWord, bField_commandWord, hlow]
  exact ⟨rfl, htop, rfl⟩

theorem encodedAs_range {mk : Nat → Nat → Instr} {n : Word}
    (hmk : ∀ off len, (mk off len).Carries ⟨op, m, .range⟩ (BitVec.ofNat 12 off) (BitVec.ofNat 12 len))
    (hdec : ∀ w, opField w = op → decode w = decodeRange w mk) (hn : n.setWidth 8 = op) (a b : BitVec 12) :
    EncodedAs (mk a.toNat b.toNat) (rangeWord n a b) := by
  rw [rangeWord_eq_commandWord, hn]
  refine encodedAs_of_carries (by simpa using hmk a.toNat b.toNat) ?_
  rw [hdec _ (opField_commandWord _ _ _), decodeRange, aField_commandWord, bField_commandWord]

theorem encodedAs_off {mk : Nat → Instr} {n : Word}
    (hmk : ∀ off, (mk off).Carries ⟨op, m, .off⟩ (BitVec.ofNat 12 off) 0)
    (hdec : ∀ w, opField w = op → decode w = decodeOff w mk) (hn : n.setWidth 8 = op) (a : BitVec 12) :
    EncodedAs (mk a.toNat) (offWord n a) := by
  rw [offWord_eq_commandWord, hn]
  refine encodedAs_of_carries (by simpa using hmk a.toNat) ?_
  rw [hdec _ (opField_commandWord _ _ _), decodeOff_eq_ok, aField_commandWord]
  exact ⟨bField_commandWord _ _ _, rfl⟩

end OperandForms

end Sys2Proof.Machine
end

section
/-! PROOFS, 40_crc16.md R125 to R128. Which decoder each CRC16 opcode picks, the remainder as a fold, and how CRC16.UPDR and
CRC16.PUT end once their operand is checked. -/

namespace Sys2Proof.Machine

/-! ### The opcodes of the CRC16 unit (30_encoding.md R104) -/

section Opcodes
variable {w : Word}

theorem decode_of_op_crc16Init (h : opField w = 0x10) : decode w = decodeNone w .crc16Init := by rw [decode, h]; rfl
theorem decode_of_op_crc16Updb (h : opField w = 0x11) : decode w = decodeImm8 w .crc16Updb := by rw [decode, h]; rfl
theorem decode_of_op_crc16Updr (h : opField w = 0x12) : decode w = decodeRange w .crc16Updr := by rw [decode, h]; rfl
theorem decode_of_op_crc16Put (h : opField w = 0x13) : decode w = decodeOff w .crc16Put := by rw [decode, h]; rfl

end Opcodes

/-! ### The remainder -/

/-- The continued remainder is the left fold of `crc16_byte` (40_crc16.md R122). -/
theorem crc16From_eq_foldl (c : Half) (bs : List Byte) : crc16From c bs = bs.foldl crc16Byte c := by
  induction bs generalizing c with
  | nil => rfl
  | cons b bs ih => exact ih (crc16Byte c b)

/-- High byte first (00_scope.md R16). -/
theorem be16_eq (v : Half) : be16 v = [(v >>> 8).setWidth 8, v.setWidth 8] := by
  have hhigh : v.extractLsb' 8 8 = (v >>> 8).setWidth 8 := by
    apply BitVec.eq_of_toNat_eq
    simp
  have hlow : v.extractLsb' 0 8 = v.setWidth 8 := by
    apply BitVec.eq_of_toNat_eq
    simp
  rw [be16, hhigh, hlow]

/-! ### How the operations end -/

section Outcomes
variable {s : State} {off len : Nat}

/-- CRC16.UPDR over bytes that the range operand answers. -/
theorem exec_crc16Updr_of_ok {bs : List Byte} (h : s.fbRange off len = .ok bs) :
    exec (.crc16Updr off len) s = .next { s with crc16 := crc16From s.crc16 bs, err := .ok } := by
  show execCrc16Updr off len s = _
  rw [execCrc16Updr, h]
  rfl

/-- CRC16.UPDR ends in the fault of its range operand. -/
theorem exec_crc16Updr_of_error {c : FaultCode} (h : s.fbRange off len = .error c) :
    exec (.crc16Updr off len) s = .next (s.raise c) := by
  show execCrc16Updr off len s = _
  rw [execCrc16Updr, h]
  rfl

/-- CRC16.PUT inside FB_SIZE. -/
theorem exec_crc16Put_of_le (h : off + 2 ≤ s.cfg.fbSize) :
    exec (.crc16Put off) s = .next { s with fb := s.fb.writeRange off (be16 s.crc16), err := .ok } := by
  show execCrc16Put off s = _
  rw [execCrc16Put, State.fbPut_eq_ok.2 ⟨h, rfl⟩]
  rfl

/-- CRC16.PUT beyond FB_SIZE. -/
theorem exec_crc16Put_of_lt (h : s.cfg.fbSize < off + 2) : exec (.crc16Put off) s = .next (s.raise .range) := by
  show execCrc16Put off s = _
  rw [execCrc16Put, State.fbPut_eq_error.2 ⟨rfl, h⟩]
  rfl

end Outcomes

/-! ### The obligations -/

/-- Settles O23: the three cases are those of the range operand's check. -/
theorem crc16RangeUpdate : Obligations.Crc16RangeUpdate := by
  refine ⟨encodedAs_range (fun _ _ => ⟨rfl, rfl, rfl⟩) (fun _ => decode_of_op_crc16Updr) rfl,
    fun s off len => ⟨?ok, ?range, ?undef⟩⟩
  case ok =>
    intro bs hbs
    rw [exec_crc16Updr_of_ok (State.fbRange_eq_ok.2 hbs), crc16From_eq_foldl]
  case range =>
    intro hbound
    exact exec_crc16Updr_of_error (State.fbRange_eq_error.2 (.inl ⟨rfl, hbound⟩))
  case undef =>
    intro hflen hlen hlacks
    exact exec_crc16Updr_of_error (State.fbRange_eq_error.2 (.inr ⟨rfl, hflen, hlen, hlacks⟩))

/-- Settles O24: the put writes the two bytes of `be16`, or is beyond FB_SIZE. -/
theorem crc16PutStoresBigEndian : Obligations.Crc16PutStoresBigEndian := by
  refine ⟨encodedAs_off (fun _ => ⟨rfl, rfl, rfl⟩) (fun _ => decode_of_op_crc16Put) rfl, fun s off => ⟨?ok, ?range⟩⟩
  case ok =>
    intro hfits
    refine ⟨_, exec_crc16Put_of_le hfits, ?_⟩
    rw [← be16_eq]
    exact Memory.writeRange_writtenTo s.fb off (be16 s.crc16)
  case range => exact exec_crc16Put_of_lt

open Laws in
/-- Settles O22: the words are those of the forms none and imm8, and neither operation can fault. -/
theorem crc16InitAndByteUpdate : Obligations.Crc16InitAndByteUpdate :=
  ⟨encodedAs_none ⟨rfl, rfl, rfl⟩ (fun _ => decode_of_op_crc16Init) rfl,
    legalOnly_none RowListed.crc16Init rfl,
    encodedAs_imm8 (fun _ => ⟨rfl, rfl, rfl⟩) (fun _ => decode_of_op_crc16Updb) rfl,
    legalOnly_imm8 (RowListed.crc16Updb 0) rfl,
    fun _ _ => ⟨rfl, rfl⟩⟩

end Sys2Proof.Machine
end

section
/-! PROOFS, 41_sum8.md R145 to R148. How an operation that starts with a checked range or put of FB ends, the sum as a number,
and the operations of the SUM8 unit. -/

namespace Sys2Proof.Machine

/-! ### Operations that start with a checked access to FB (20_memory.md R70) -/

section CheckedAccess
variable {s : State} {off len : Nat} {bs : List Byte}

/-- An operation on a range that is in bounds and defined goes on with its bytes. -/
theorem State.attempt_fbRange_of_hasRange (k : List Byte → Check State) (h : s.HasRange off len bs) :
    s.attempt (s.fbRange off len >>= k) = s.attempt (k bs) := by
  rw [State.fbRange_eq_ok.2 h]
  rfl

/-- An operation on a range beyond FLEN, or with FLEN beyond FB_SIZE, is F_RANGE. -/
theorem State.attempt_fbRange_of_out_of_bounds (k : List Byte → Check State)
    (h : s.cfg.fbSize < s.flen.toNat ∨ s.flen.toNat < off + len) :
    s.attempt (s.fbRange off len >>= k) = .next (s.raise .range) := by
  rw [State.fbRange_eq_error.2 (.inl ⟨rfl, h⟩)]
  rfl

/-- An operation on a range in bounds that lacks a byte is F_UNDEF. -/
theorem State.attempt_fbRange_of_lacks (k : List Byte → Check State) (hflen : s.flen.toNat ≤ s.cfg.fbSize)
    (hlen : off + len ≤ s.flen.toNat) (hlacks : s.fb.Lacks off len) :
    s.attempt (s.fbRange off len >>= k) = .next (s.raise .undef) := by
  rw [State.fbRange_eq_error.2 (.inr ⟨rfl, hflen, hlen, hlacks⟩)]
  rfl

/-- An operation that puts bytes inside FB_SIZE goes on with FB written. -/
theorem State.attempt_fbPut_of_le (k : State → Check State) (h : off + bs.length ≤ s.cfg.fbSize) :
    s.attempt (s.fbPut off bs >>= k) = s.attempt (k { s with fb := s.fb.writeRange off bs }) := by
  rw [State.fbPut_eq_ok.2 ⟨h, rfl⟩]
  rfl

/-- An operation that puts bytes beyond FB_SIZE is F_RANGE. -/
theorem State.attempt_fbPut_of_lt (k : State → Check State) (h : s.cfg.fbSize < off + bs.length) :
    s.attempt (s.fbPut off bs >>= k) = .next (s.raise .range) := by
  rw [State.fbPut_eq_error.2 ⟨rfl, h⟩]
  rfl

end CheckedAccess

/-! ### The sum as a number -/

/-- The continued sum is the sum of the numbers, modulo 256 (41_sum8.md R141). -/
theorem sum8From_eq_ofNat (x : Byte) (bs : List Byte) :
    sum8From x bs = BitVec.ofNat 8 (x.toNat + (bs.map BitVec.toNat).sum) := by
  induction bs generalizing x with
  | nil => simp [sum8From]
  | cons b bs ih =>
    calc sum8From (x + b) bs = BitVec.ofNat 8 ((x + b).toNat + (bs.map BitVec.toNat).sum) := ih (x + b)
      _ = BitVec.ofNat 8 (x.toNat + ((b :: bs).map BitVec.toNat).sum) := by
        apply BitVec.eq_of_toNat_eq
        simp [Nat.add_assoc]

/-! ### The operations of the SUM8 unit (30_encoding.md R104; 41_sum8.md R145 to R148) -/

section Opcodes
variable {w : Word}

theorem decode_of_op_sum8Init (h : opField w = 0x20) : decode w = decodeNone w .sum8Init := by rw [decode, h]; rfl
theorem decode_of_op_sum8Updb (h : opField w = 0x21) : decode w = decodeImm8 w .sum8Updb := by rw [decode, h]; rfl
theorem decode_of_op_sum8Updr (h : opField w = 0x22) : decode w = decodeRange w .sum8Updr := by rw [decode, h]; rfl
theorem decode_of_op_sum8Put (h : opField w = 0x23) : decode w = decodeOff w .sum8Put := by rw [decode, h]; rfl

end Opcodes

theorem exec_sum8Init (s : State) : exec .sum8Init s = .next { s with sum8 := 0, err := .ok } := rfl

theorem exec_sum8Updb (imm : Byte) (s : State) :
    exec (.sum8Updb imm) s = .next { s with sum8 := s.sum8 + imm, err := .ok } := rfl

theorem exec_sum8Updr (off len : Nat) (s : State) :
    exec (.sum8Updr off len) s =
      s.attempt (s.fbRange off len >>= fun bs => .ok { s with sum8 := sum8From s.sum8 bs, err := .ok }) := rfl

theorem exec_sum8Put (off : Nat) (s : State) :
    exec (.sum8Put off) s = s.attempt (s.fbPut off [s.sum8] >>= fun t => .ok t.succeed) := rfl

/-! ### The obligations -/

/-- Settles O29: the three cases are those of the range operand's check, and the sum continues over the bytes read. -/
theorem sum8RangeUpdate : Obligations.Sum8RangeUpdate := by
  refine ⟨encodedAs_range (fun _ _ => ⟨rfl, rfl, rfl⟩) (fun _ => decode_of_op_sum8Updr) rfl,
    fun s off len => ⟨?ok, ?range, ?undef⟩⟩
  case ok =>
    intro bs hbs
    rw [exec_sum8Updr, State.attempt_fbRange_of_hasRange _ hbs, State.attempt_ok, sum8From_eq_ofNat]
  case range =>
    intro hbound
    rw [exec_sum8Updr]
    exact State.attempt_fbRange_of_out_of_bounds _ hbound
  case undef =>
    intro hflen hlen hlacks
    rw [exec_sum8Updr]
    exact State.attempt_fbRange_of_lacks _ hflen hlen hlacks

/-- Settles O30: the put writes the one byte SUM8, or is beyond FB_SIZE. -/
theorem sum8PutStoresTheSum : Obligations.Sum8PutStoresTheSum := by
  refine ⟨encodedAs_off (fun _ => ⟨rfl, rfl, rfl⟩) (fun _ => decode_of_op_sum8Put) rfl, fun s off => ⟨?ok, ?range⟩⟩
  case ok =>
    intro hfits
    rw [exec_sum8Put]
    exact ⟨_, State.attempt_fbPut_of_le _ hfits, Memory.writeRange_writtenTo s.fb off [s.sum8]⟩
  case range =>
    intro hbeyond
    rw [exec_sum8Put]
    exact State.attempt_fbPut_of_lt _ hbeyond

open Laws in
/-- Settles O28: the words are those of the forms none and imm8, and neither operation can fault. -/
theorem sum8InitAndByteUpdate : Obligations.Sum8InitAndByteUpdate := by
  refine ⟨encodedAs_none ⟨rfl, rfl, rfl⟩ (fun _ => decode_of_op_sum8Init) rfl,
    legalOnly_none RowListed.sum8Init rfl,
    encodedAs_imm8 (fun _ => ⟨rfl, rfl, rfl⟩) (fun _ => decode_of_op_sum8Updb) rfl,
    legalOnly_imm8 (RowListed.sum8Updb 0) rfl,
    fun s imm => ⟨exec_sum8Init s, ?_⟩⟩
  rw [exec_sum8Updb, BitVec.add_def]

end Sys2Proof.Machine
end

section
/-! PROOFS, 42_sha256_kdf.md R164, R172, R180. One byte into the engine, and the operations SHA.INIT and KDF.LATCH. -/

namespace Sys2Proof.Machine

/-! ### The opcodes of the SHA-256 engine and the key derivation that stand alone (30_encoding.md R104) -/

section Opcodes
variable {w : Word}

theorem decode_of_op_shaInit (h : opField w = 0x30) : decode w = decodeNone w .shaInit := by rw [decode, h]; rfl
theorem decode_of_op_kdfRun (h : opField w = 0x38) : decode w = decodeNone w .kdfRun := by rw [decode, h]; rfl
theorem decode_of_op_kdfLatch (h : opField w = 0x39) : decode w = decodeNone w .kdfLatch := by rw [decode, h]; rfl

end Opcodes

theorem exec_shaInit (s : State) : exec .shaInit s = .next { s.initSha with err := .ok } := rfl

theorem exec_kdfRun (s : State) :
    exec .kdfRun s = s.attempt (s.readKeys >>= fun ks => s.deriveKeyInto ks.1 ks.2 >>= fun t => .ok t.succeed) := rfl

theorem exec_kdfLatch (s : State) : exec .kdfLatch s = s.attempt (s.latchKey >>= fun t => .ok t.succeed) := rfl

/-! ### One byte into the block (42_sha256_kdf.md R164) -/

/-- A byte into the block counts MBN modulo 64. -/
theorem ShaEngine.pad_mbn {b : Byte} {e e' : ShaEngine} (h : e.pad b = .ok e') :
    e'.mbn.val = (e.mbn.val + 1) % 64 := by
  obtain ⟨-, -, -, ⟨hlt, -, hmbn⟩ | ⟨hfull, hmbn, -⟩⟩ := ShaEngine.pad_cases h
  · rw [hmbn, Nat.mod_eq_of_lt hlt]
  · rw [hmbn, hfull]
    rfl

/-- What the absorption of one byte does, if it answers: the cases of `pad`, with MLEN counted. -/
theorem ShaEngine.absorb_cases {b : Byte} {e e' : ShaEngine} (h : e.absorb b = .ok e') :
    e'.mlen = e.mlen + 1 ∧ e'.mb = e.mb.write e.mbn.val b ∧
      ((∃ hl : e.mbn.val + 1 < 64, e'.h = e.h ∧ e'.mbn = ⟨e.mbn.val + 1, hl⟩) ∨
        (e.mbn.val = 63 ∧ e'.mbn = 0 ∧
          ∃ c block, e.h = some c ∧ e'.mb.memRead 0 64 = .ok block ∧ e'.h = some (shaCompress c block))) := by
  obtain ⟨p, hp, rfl⟩ := ShaEngine.absorb_eq_ok.1 h
  obtain ⟨-, -, hmb, hcases⟩ := ShaEngine.pad_cases hp
  exact ⟨rfl, hmb, hmb ▸ hcases⟩

/-- Absorbing a byte and then the others. -/
theorem ShaEngine.absorbAll_cons_of_absorb {b : Byte} {e e' : ShaEngine} (h : e.absorb b = .ok e') (bs : List Byte) :
    e.absorbAll (b :: bs) = e'.absorbAll bs := by
  rw [ShaEngine.absorbAll, h, Check.ok_bind]

/-- Settles O32: a ready engine takes the byte, and MBN tells whether the byte fills the block. -/
theorem absorbFillsAndCompresses : Obligations.AbsorbFillsAndCompresses := by
  intro e b hready
  obtain ⟨e', habsorb, -⟩ := ShaEngine.absorb_ready hready b
  obtain ⟨hmlen, hmb, hcases⟩ := ShaEngine.absorb_cases habsorb
  have hwritten : e.mb.WrittenTo e'.mb e.mbn.val [b] := hmb ▸ Memory.writeRange_writtenTo e.mb e.mbn.val [b]
  refine ⟨e', habsorb, rfl, ShaEngine.absorbAll_cons_of_absorb habsorb, hmlen, hwritten,
    fun hlt => ?room, fun hfull => ?full⟩
  case room =>
    obtain ⟨hl, hh, hmbn⟩ | ⟨hfull, -⟩ := hcases
    · exact ⟨congrArg Fin.val hmbn, hh⟩
    · omega
  case full =>
    obtain ⟨hl, -⟩ | ⟨-, hmbn, c, block, hc, hread, hh⟩ := hcases
    · omega
    · obtain ⟨hlen, hholds⟩ := Memory.memRead_eq_ok.1 hread
      exact ⟨hmbn, c, block, hc, hlen, hholds, hh⟩

/-! ### SHA.INIT and KDF.LATCH -/

/-- Settles O31: the operation cannot fault, and `ShaEngine.init` is the engine R172 describes. -/
theorem shaInitOpensAMessage : Obligations.ShaInitOpensAMessage :=
  ⟨encodedAs_none ⟨rfl, rfl, rfl⟩ (fun _ => decode_of_op_shaInit) rfl, exec_shaInit⟩

/-- Settles O39: the two cases are those of reading DG. -/
theorem kdfLatchCopiesTheDigest : Obligations.KdfLatchCopiesTheDigest := by
  refine ⟨encodedAs_none ⟨rfl, rfl, rfl⟩ (fun _ => decode_of_op_kdfLatch) rfl, fun s => ⟨?digest, ?noDigest⟩⟩
  case digest =>
    intro d hdgv hdg
    rw [exec_kdfLatch, State.latchKey_eq_ok.2 ⟨d, hdgv, hdg, rfl⟩]
    rfl
  case noDigest =>
    intro hdgv
    rw [exec_kdfLatch, State.latchKey, State.digest_eq_error.2 (.inl ⟨rfl, hdgv⟩)]
    rfl

end Sys2Proof.Machine
end

section
/-! PROOFS, 42_sha256_kdf.md R161 to R166. The streaming engine computes `sha256`: which bytes an engine has been fed since
SHA.INIT, the padding of `finish()` as a list of bytes, and what `finish()` leaves. -/

namespace Sys2Proof.Machine

/-! ### The chaining value block by block (42_sha256_kdf.md R161) -/

/-- One block more at the end of whole blocks is one compression more. -/
theorem shaBlocks_succ_append {k : Nat} {blocks block : List Byte} (hk : blocks.length = 64 * k) (hb : block.length = 64)
    (h : Hash8) : shaBlocks (k + 1) h (blocks ++ block) = shaCompress (shaBlocks k h blocks) block := by
  induction k generalizing h blocks with
  | zero =>
    obtain rfl := List.length_eq_zero_iff.1 hk
    rw [List.nil_append, shaBlocks, shaBlocks, shaBlocks, List.take_of_length_le hb.le]
  | succ k ih =>
    rw [shaBlocks, List.take_append_of_le_length (by omega), List.drop_append_of_le_length (by omega),
      ih (by rw [List.length_drop]; omega), shaBlocks]

/-! ### The bytes an engine has been fed -/

/-- The bytes at the front of a buffer with one more written behind them. -/
theorem Memory.Holds.snoc {m : Memory} {bs : List Byte} (h : m.Holds 0 bs) (b : Byte) :
    (m.write bs.length b).Holds 0 (bs ++ [b]) := by
  intro k hk
  rw [Nat.zero_add, Memory.read_write]
  split
  · next heq => rw [heq, List.getElem?_concat_length]
  · next hne =>
    have hlt : k < bs.length := by
      rw [List.length_append, List.length_singleton] at hk
      omega
    rw [List.getElem?_append_left hlt, ← h k hlt, Nat.zero_add]

/-- The bytes `bs`, of the message or of its padding, have gone into the block since SHA.INIT: H holds the chaining value of
the whole blocks among them, and the block holds the rest (42_sha256_kdf.md R164). -/
def ShaEngine.Fed (e : ShaEngine) (bs : List Byte) : Prop :=
  ∃ k blocks rest, bs = blocks ++ rest ∧ blocks.length = 64 * k ∧ rest.length = e.mbn.val ∧
    e.h = some (shaBlocks k shaH0 blocks) ∧ e.mb.Holds 0 rest

theorem ShaEngine.init_fed : ShaEngine.init.Fed [] :=
  ⟨0, [], [], rfl, rfl, rfl, rfl, fun _ hk => absurd hk (Nat.not_lt_zero _)⟩

/-- MBN is where the bytes end in the block. -/
theorem ShaEngine.Fed.mbn_eq {e : ShaEngine} {bs : List Byte} (h : e.Fed bs) : e.mbn.val = bs.length % 64 := by
  obtain ⟨k, blocks, rest, rfl, hblocks, hrest, -⟩ := h
  rw [List.length_append, hblocks, hrest, Nat.mul_add_mod, Nat.mod_eq_of_lt e.mbn.isLt]

/-- After whole blocks H holds their chaining value. -/
theorem ShaEngine.Fed.h_eq {e : ShaEngine} {bs : List Byte} (h : e.Fed bs) (hwhole : bs.length % 64 = 0) :
    e.h = some (shaBlocks (bs.length / 64) shaH0 bs) := by
  have hmbn := h.mbn_eq
  obtain ⟨k, blocks, rest, rfl, hblocks, hrest, hh, -⟩ := h
  obtain rfl : rest = [] := List.length_eq_zero_iff.1 (by omega)
  rw [List.append_nil, hh, hblocks, Nat.mul_div_cancel_left k (by decide)]

/-- One byte more. -/
theorem ShaEngine.Fed.pad {e e' : ShaEngine} {bs : List Byte} {b : Byte} (h : e.Fed bs) (hpad : e.pad b = .ok e') :
    e'.Fed (bs ++ [b]) := by
  obtain ⟨k, blocks, rest, rfl, hblocks, hrest, hh, hmb⟩ := h
  have hfilled := hmb.snoc b
  rw [hrest] at hfilled
  obtain ⟨-, -, hmb', ⟨hlt, hh', hmbn'⟩ | ⟨hfull, hmbn', c, block, hc, hread, hh'⟩⟩ := ShaEngine.pad_cases hpad
  case inl =>
    refine ⟨k, blocks, rest ++ [b], List.append_assoc .., hblocks, ?_, hh'.trans hh, hmb' ▸ hfilled⟩
    rw [hmbn', List.length_append, hrest, List.length_singleton]
  case inr =>
    have hlen : (rest ++ [b]).length = 64 := by rw [List.length_append, hrest, hfull, List.length_singleton]
    have hblock : block = rest ++ [b] := Except.ok.inj (hread.symm.trans (Memory.memRead_eq_ok.2 ⟨hlen, hfilled⟩))
    obtain rfl : shaBlocks k shaH0 blocks = c := Option.some.inj (hh.symm.trans hc)
    refine ⟨k + 1, blocks ++ (rest ++ [b]), [], by simp, ?_, (congrArg Fin.val hmbn').symm, ?_,
      fun _ hk => absurd hk (Nat.not_lt_zero _)⟩
    · rw [List.length_append, hblocks, hlen, Nat.mul_succ]
    · rw [hh', hblock, shaBlocks_succ_append hblocks hlen]

theorem ShaEngine.Fed.padAll {e e' : ShaEngine} {bs xs : List Byte} (h : e.Fed bs) (hpad : e.padAll xs = .ok e') :
    e'.Fed (bs ++ xs) := by
  induction xs generalizing e bs with
  | nil =>
    obtain rfl := Except.ok.inj hpad
    rwa [List.append_nil]
  | cons x xs ih =>
    obtain ⟨p, hp, hrest⟩ := Check.bind_eq_ok.1 hpad
    rw [List.append_cons]
    exact ih (h.pad hp) hrest

/-! ### The bytes absorbed, with their count (42_sha256_kdf.md R164) -/

/-- Exactly the bytes of the message `msg` have gone in since SHA.INIT, and fewer than 2^64 of them. -/
structure ShaEngine.Counted (e : ShaEngine) (msg : List Byte) : Prop where
  fed : e.Fed msg
  mlen_eq : e.mlen.toNat = msg.length
  not_wrapped : e.wrapped = false

theorem ShaEngine.Counted.absorb {e e' : ShaEngine} {msg : List Byte} {b : Byte} (h : e.Counted msg)
    (hlen : msg.length + 1 < 2 ^ 64) (habsorb : e.absorb b = .ok e') : e'.Counted (msg ++ [b]) := by
  obtain ⟨p, hp, rfl⟩ := ShaEngine.absorb_eq_ok.1 habsorb
  have hmlen : (e.mlen + 1).toNat = msg.length + 1 := by
    rw [BitVec.toNat_add, h.mlen_eq]
    exact Nat.mod_eq_of_lt hlen
  have hne : e.mlen + 1 ≠ 0 := fun h0 => by
    rw [h0] at hmlen
    exact absurd hmlen (Nat.succ_ne_zero _).symm
  exact {
    fed := (h.fed.pad hp : p.Fed (msg ++ [b]))
    mlen_eq := by rw [hmlen, List.length_append, List.length_singleton]
    not_wrapped := Bool.or_eq_false_iff.2 ⟨h.not_wrapped, beq_false_of_ne hne⟩ }

theorem ShaEngine.Counted.absorbAll {e e' : ShaEngine} {msg bs : List Byte} (h : e.Counted msg)
    (hlen : msg.length + bs.length < 2 ^ 64) (habsorb : e.absorbAll bs = .ok e') : e'.Counted (msg ++ bs) := by
  induction bs generalizing e msg with
  | nil =>
    obtain rfl := Except.ok.inj habsorb
    rwa [List.append_nil]
  | cons b bs ih =>
    obtain ⟨p, hp, hrest⟩ := Check.bind_eq_ok.1 habsorb
    rw [List.length_cons] at hlen
    rw [List.append_cons]
    refine ih (h.absorb (by omega) hp) ?_ hrest
    rw [List.length_append, List.length_singleton]
    omega

theorem ShaEngine.HasAbsorbed.counted {e : ShaEngine} {msg : List Byte} (h : e.HasAbsorbed msg)
    (hlen : msg.length < 2 ^ 61) : e.Counted msg := by
  have hinit : ShaEngine.init.Counted [] := ⟨ShaEngine.init_fed, rfl, rfl⟩
  refine hinit.absorbAll ?_ h
  rw [List.length_nil]
  omega

/-! ### The padding of `finish()` as bytes (42_sha256_kdf.md R161, R165) -/

theorem ShaEngine.padAll_append (xs ys : List Byte) (e : ShaEngine) :
    e.padAll (xs ++ ys) = (e.padAll xs >>= fun e' => e'.padAll ys) := by
  induction xs generalizing e with
  | nil => rfl
  | cons x xs ih =>
    rw [List.cons_append, ShaEngine.padAll, ShaEngine.padAll]
    cases e.pad x with
    | error c => rfl
    | ok p => exact ih p

/-- The loop `while MBN != 56` pads `n` zeros when these take MBN to 56 for the first time. -/
theorem ShaEngine.padZeros_eq_padAll {k n : Nat} {e : ShaEngine} (hn : n < 64) (hk : n ≤ k)
    (hend : (e.mbn.val + n) % 64 = 56) : e.padZeros k = e.padAll (List.replicate n 0) := by
  induction k generalizing n e with
  | zero =>
    obtain rfl := Nat.le_zero.1 hk
    rfl
  | succ k ih =>
    rw [ShaEngine.padZeros]
    cases n with
    | zero =>
      rw [if_pos (by omega)]
      rfl
    | succ n =>
      rw [if_neg (by omega), List.replicate_succ, ShaEngine.padAll]
      cases hp : e.pad 0x00 with
      | error c => rfl
      | ok p =>
        have hmbn := ShaEngine.pad_mbn hp
        exact ih (by omega) (by omega) (by omega)

/-- What the padding appends to a message of `n` bytes. -/
def shaPadding (n : Nat) : List Byte :=
  [0x80] ++ List.replicate (padZeroCount n) 0 ++ be64 (BitVec.ofNat 64 (8 * n))

theorem shaPad_eq (msg : List Byte) : shaPad msg = msg ++ shaPadding msg.length := by
  simp only [shaPad, shaPadding, List.append_assoc]

/-- The padded message is whole blocks. -/
theorem shaPad_length_mod (msg : List Byte) : (shaPad msg).length % 64 = 0 := by
  simp only [shaPad, padZeroCount, List.length_append, List.length_singleton, List.length_replicate, be64_length]
  omega

/-- `finish()` feeds the padding of the message absorbed. -/
theorem ShaEngine.Counted.padToEnd_eq {e : ShaEngine} {msg : List Byte} (h : e.Counted msg) :
    e.padToEnd = e.padAll (shaPadding msg.length) := by
  have hbits : 8 * e.mlen = BitVec.ofNat 64 (8 * msg.length) := by
    apply BitVec.eq_of_toNat_eq
    simp [h.mlen_eq]
  rw [ShaEngine.padToEnd, hbits, shaPadding, List.append_assoc, List.singleton_append, ShaEngine.padAll]
  cases hp : e.pad 0x80 with
  | error c => rfl
  | ok p =>
    have hmbn := ShaEngine.pad_mbn hp
    rw [h.fed.mbn_eq] at hmbn
    have hzeros : p.padZeros 64 = p.padAll (List.replicate (padZeroCount msg.length) 0) := by
      unfold padZeroCount
      exact ShaEngine.padZeros_eq_padAll (by omega) (by omega) (by omega)
    rw [Check.ok_bind, Check.ok_bind, hzeros, ShaEngine.padAll_append]

/-- The engine as `finish()` leaves it holds the chaining value of the padded message. -/
theorem ShaEngine.Counted.h_of_padToEnd {e e' : ShaEngine} {msg : List Byte} (h : e.Counted msg)
    (hpad : e.padToEnd = .ok e') : e'.h = some (shaBlocks ((shaPad msg).length / 64) shaH0 (shaPad msg)) := by
  rw [h.padToEnd_eq] at hpad
  have hfed := h.fed.padAll hpad
  rw [← shaPad_eq] at hfed
  exact hfed.h_eq (shaPad_length_mod msg)

theorem ShaEngine.Counted.not_tooLong {e : ShaEngine} {msg : List Byte} (h : e.Counted msg)
    (hlen : msg.length < 2 ^ 61) : e.tooLong = false := by
  rw [ShaEngine.tooLong, h.not_wrapped, h.mlen_eq, Bool.false_or, decide_eq_false (Nat.not_le.2 hlen)]

/-! ### What `finish()` leaves (42_sha256_kdf.md R165, R166) -/

/-- The state with a message hashed: the engine left in `e`, the digest in DG, and no message open. -/
def State.hashed (s : State) (e : ShaEngine) (d : Vector Byte 32) : State :=
  { s with sha := e, shav := false, dg := some d, dgv := true }

@[simp] theorem State.hashed_hashed (s : State) (e e' : ShaEngine) (d d' : Vector Byte 32) :
    (s.hashed e d).hashed e' d' = s.hashed e' d' := rfl

@[simp] theorem State.digest_hashed (s : State) (e : ShaEngine) (d : Vector Byte 32) : (s.hashed e d).digest = .ok d := rfl

@[simp] theorem State.latchKey_hashed (s : State) (e : ShaEngine) (d : Vector Byte 32) :
    (s.hashed e d).latchKey = .ok { s.hashed e d with dk := some d, dkv := true } := rfl

/-- `finish()` after the bytes of a message below 2^61 bytes leaves the message's `sha256`. -/
theorem State.finishSha_of_hasAbsorbed {s : State} {msg : List Byte} (h : s.sha.HasAbsorbed msg)
    (hlen : msg.length < 2 ^ 61) : ∃ e, s.sha.padToEnd = .ok e ∧ s.finishSha = .ok (s.hashed e (sha256 msg)) := by
  have hcounted := ShaEngine.HasAbsorbed.counted h hlen
  obtain ⟨t, ht⟩ : ∃ t, s.finishSha = .ok t := by
    obtain ⟨e, he, hready⟩ := ShaEngine.absorbAll_ready ShaEngine.init_ready.1 msg
    obtain rfl : e = s.sha := Except.ok.inj (he.symm.trans h)
    exact State.finishSha_ready hready
  obtain ⟨e, c, hpad, hc, ⟨-, rfl⟩ | ⟨hlong, -⟩⟩ := State.finishSha_cases ht
  · obtain rfl := Option.some.inj (hc.symm.trans (hcounted.h_of_padToEnd hpad))
    exact ⟨e, hpad, ht⟩
  · exact absurd hlong (by rw [hcounted.not_tooLong hlen]; decide)

end Sys2Proof.Machine
end

section
/-! PROOFS, 42_sha256_kdf.md R170, R179. KDF.RUN: one hash of the derivation, the chaining rounds, and the checks that come
before them. -/

namespace Sys2Proof.Machine

/-- One hash of the derivation leaves the `sha256` of its message. -/
theorem State.hashMessage_eq {msg : List Byte} (hlen : msg.length < 2 ^ 61) (s : State) :
    ∃ e, e.HasFinished msg ∧ s.hashMessage msg = .ok (s.hashed e (sha256 msg)) := by
  obtain ⟨e0, habsorb, -⟩ := ShaEngine.absorbAll_ready ShaEngine.init_ready.1 msg
  obtain ⟨e, hpad, hfinish⟩ := State.finishSha_of_hasAbsorbed (s := { s.initSha with sha := e0 }) habsorb hlen
  refine ⟨e, ⟨e0, habsorb, hpad⟩, ?_⟩
  rw [State.hashMessage, State.absorbSha_eq_ok.2 ⟨e0, habsorb, rfl⟩, Check.ok_bind, hfinish]
  rfl

/-! ### The chaining rounds (42_sha256_kdf.md R170) -/

theorem chainKey_succ (k1 k2 : List Byte) (n : Nat) (key : Vector Byte 32) :
    chainKey k1 k2 (n + 1) key = sha256 ((chainKey k1 k2 n key).toList ++ k1 ++ k2) := by
  induction n generalizing key with
  | zero => rfl
  | succ n ih => exact ih (sha256 (key.toList ++ k1 ++ k2))

/-- `derive_key` is the `sha256` of the last message that KDF.RUN hashes. -/
theorem deriveKey_eq_sha256 (k1 k2 : List Byte) (n : Nat) : deriveKey k1 k2 n = sha256 (lastKdfMessage k1 k2 n) := by
  cases n with
  | zero => rfl
  | succ n => exact chainKey_succ k1 k2 n _

theorem lastKdfMessage_length_le (k1 k2 : List Byte) (n : Nat) :
    (lastKdfMessage k1 k2 n).length ≤ 32 + k1.length + k2.length := by
  cases n <;> simp only [lastKdfMessage, List.length_append, Vector.length_toList] <;> omega

section Rounds
variable {k1 k2 : List Byte}

/-- `n` rounds go from the key after `j` iterations to the key after `j + n`. -/
theorem State.kdfRounds_eq (hlen : 32 + k1.length + k2.length < 2 ^ 61) (s : State) (n : Nat) {j : Nat} {e : ShaEngine}
    (he : e.HasFinished (lastKdfMessage k1 k2 j)) :
    ∃ e', e'.HasFinished (lastKdfMessage k1 k2 (j + n)) ∧
      State.kdfRounds k1 k2 n (s.hashed e (deriveKey k1 k2 j)) = .ok (s.hashed e' (deriveKey k1 k2 (j + n))) := by
  induction n generalizing j e with
  | zero => exact ⟨e, he, rfl⟩
  | succ n ih =>
    obtain ⟨e1, he1, hhash⟩ :=
      (s.hashed e (deriveKey k1 k2 j)).hashMessage_eq ((lastKdfMessage_length_le k1 k2 (j + 1)).trans_lt hlen)
    rw [State.hashed_hashed, ← deriveKey_eq_sha256, lastKdfMessage] at hhash
    obtain ⟨e', he', hrounds⟩ := ih he1
    rw [Nat.add_assoc, Nat.add_comm 1 n] at he' hrounds
    refine ⟨e', he', ?_⟩
    rw [State.kdfRounds, State.digest_hashed, Check.ok_bind, hhash, Check.ok_bind, hrounds]

/-- The derivation leaves `derive_key` in DG and DK. -/
theorem State.deriveKeyInto_eq (hlen : 32 + k1.length + k2.length < 2 ^ 61) (s : State) :
    ∃ e, e.HasFinished (lastKdfMessage k1 k2 s.iter.toNat) ∧
      s.deriveKeyInto k1 k2 = .ok { s.hashed e (deriveKey k1 k2 s.iter.toNat) with
        dk := some (deriveKey k1 k2 s.iter.toNat), dkv := true } := by
  obtain ⟨e0, he0, hfirst⟩ := s.hashMessage_eq ((lastKdfMessage_length_le k1 k2 0).trans_lt hlen)
  rw [← deriveKey_eq_sha256, lastKdfMessage] at hfirst
  obtain ⟨e, he, hrounds⟩ := State.kdfRounds_eq hlen s s.iter.toNat he0
  rw [Nat.zero_add] at he hrounds
  refine ⟨e, he, ?_⟩
  rw [State.deriveKeyInto, hfirst, Check.ok_bind, hrounds, Check.ok_bind, State.latchKey_hashed]

/-- Two loaded secrets and a digest are far below the 2^61 bytes of 42_sha256_kdf.md R163. -/
theorem State.HasKeys.kdfMessage_lt {s : State} (h : s.HasKeys k1 k2) : 32 + k1.length + k2.length < 2 ^ 61 := by
  obtain ⟨hmax1, hmax2, hlen1, hlen2, -⟩ := h
  have hcap := s.cfg.keyMax_le
  omega

end Rounds

/-! ### The obligation -/

/-- Settles O37: once both secrets are read the derivation completes; the faults are those of reading them. -/
theorem kdfRunDerivesTheKey : Obligations.KdfRunDerivesTheKey := by
  refine ⟨encodedAs_none ⟨rfl, rfl, rfl⟩ (fun _ => decode_of_op_kdfRun) rfl, fun s => ⟨?keys, ?keyLen, ?undef⟩⟩
  case keys =>
    intro k1 k2 hkeys
    obtain ⟨e, he, hderive⟩ := s.deriveKeyInto_eq (State.HasKeys.kdfMessage_lt hkeys)
    refine ⟨e, he, ?_⟩
    rw [exec_kdfRun, State.readKeys_eq_ok.2 hkeys, Check.ok_bind, hderive]
    rfl
  case keyLen =>
    intro hlen
    rw [exec_kdfRun, State.readKeys_eq_error.2 (.inl ⟨rfl, hlen⟩)]
    rfl
  case undef =>
    intro hlen1 hlen2 hlacks
    rw [exec_kdfRun, State.readKeys_eq_error.2 (.inr ⟨rfl, hlen1, hlen2, hlacks⟩)]
    rfl

end Sys2Proof.Machine
end

section
/-! PROOFS, 43_rc4.md R196 to R198. How the operations of the RC4 unit end once their operands are checked: the key schedule,
and one cipher state that RC4.XORR and RC4.GEN take their keystream from. -/

namespace Sys2Proof.Machine

/-! ### The opcodes of the RC4 unit (30_encoding.md R104) -/

section Opcodes
variable {w : Word}

theorem decode_of_op_rc4Ksa (h : opField w = 0x40) : decode w = decodeNone w .rc4Ksa := by rw [decode, h]; rfl
theorem decode_of_op_rc4Gen (h : opField w = 0x42) : decode w = decodeNone w .rc4Gen := by rw [decode, h]; rfl

end Opcodes

/-! ### How the operations end -/

section Outcomes
variable {s : State} {c : Rc4}

theorem exec_rc4Ksa (s : State) : exec .rc4Ksa s = s.attempt (s.scheduleKey >>= fun t => .ok t.succeed) := rfl

theorem exec_rc4Xorr (off len : Nat) (s : State) :
    exec (.rc4Xorr off len) s =
      s.attempt (s.cipher >>= fun _ => s.fbRange off len >>= fun bs => s.xorKeystream bs >>= fun p =>
        .ok { p.2 with fb := p.2.fb.writeRange off p.1, err := .ok }) := rfl

theorem exec_rc4Gen (s : State) :
    exec .rc4Gen s =
      s.attempt (s.cipher >>= fun c => .ok { s.setCipher c.next.2 with ksb := c.next.1, err := .ok }) := rfl

/-- RC4.XORR with a keyed state, over a range in bounds and defined: the keystream laid over the bytes, and the cipher state
that many bytes on. -/
theorem exec_rc4Xorr_of_hasRange {off len : Nat} {bs : List Byte} (hc : s.cipher = .ok c) (hbs : s.HasRange off len bs) :
    exec (.rc4Xorr off len) s = .next { s.setCipher (c.advance len) with
      fb := s.fb.writeRange off (c.xorBytes bs).1, err := .ok } := by
  have ⟨_, _, hlen, _⟩ := hbs
  rw [exec_rc4Xorr, hc, Check.ok_bind, State.attempt_fbRange_of_hasRange _ hbs,
    State.xorKeystream_eq_ok.2 ⟨c, hc, rfl, rfl⟩, hlen]
  rfl

/-- RC4.GEN with a keyed state: the next keystream byte, and the cipher state one byte on. -/
theorem exec_rc4Gen_of_cipher (hc : s.cipher = .ok c) :
    exec .rc4Gen s = .next { s.setCipher c.next.2 with ksb := c.next.1, err := .ok } := by
  rw [exec_rc4Gen, hc]
  rfl

end Outcomes

/-! ### The obligations -/

/-- Settles O41: the two cases are those of reading DK. -/
theorem rc4KsaSchedulesTheKey : Obligations.Rc4KsaSchedulesTheKey := by
  refine ⟨encodedAs_none ⟨rfl, rfl, rfl⟩ (fun _ => decode_of_op_rc4Ksa) rfl, fun s => ⟨?key, ?noKey⟩⟩
  case key =>
    intro k hdkv hdk
    rw [exec_rc4Ksa, State.scheduleKey_eq_ok.2 ⟨k, hdkv, hdk, rfl⟩]
    rfl
  case noKey =>
    intro hdkv
    rw [exec_rc4Ksa, State.scheduleKey, State.derivedKey_eq_error.2 (.inl ⟨rfl, hdkv⟩)]
    rfl

/-- Settles O43: RC4.GEN and one byte of RC4.XORR take the same step of the same cipher state. -/
theorem rc4GenGivesTheNextByte : Obligations.Rc4GenGivesTheNextByte := by
  refine ⟨encodedAs_none ⟨rfl, rfl, rfl⟩ (fun _ => decode_of_op_rc4Gen) rfl, fun s sb => ⟨?keyed, ?noState⟩⟩
  case keyed =>
    intro hrc4v hs c
    have hc : s.cipher = .ok c := State.cipher_eq_ok.2 ⟨hrc4v, hs, rfl, rfl⟩
    refine ⟨exec_rc4Gen_of_cipher hc, fun off b hb => ⟨_, exec_rc4Xorr_of_hasRange hc hb, ?_⟩⟩
    exact Memory.writeRange_writtenTo s.fb off [b ^^^ c.next.1]
  case noState =>
    intro hrc4v
    rw [exec_rc4Gen, State.cipher_eq_error.2 (.inl ⟨rfl, hrc4v⟩)]
    rfl

end Sys2Proof.Machine
end

section
/-! PROOFS, 44_frame_rx.md R212. How an operation on the frame of FB starts, the footer of a frame, and what FRM.VALIDATE
makes of the body and the footer. -/

namespace Sys2Proof.Machine

/-! ### Operations that start by reading the frame (20_memory.md R70) -/

section FrameRead
variable {s : State} {f : List Byte}

/-- An operation on a frame that FB holds goes on with its bytes. -/
theorem State.attempt_fbFrame_of_hasFrame (k : List Byte → Check State) (h : s.HasFrame f) :
    s.attempt (s.fbFrame >>= k) = s.attempt (k f) := by
  rw [State.fbFrame_eq_ok.2 h, Check.ok_bind]

/-- An operation on the frame with FLEN beyond FB_SIZE is F_RANGE. -/
theorem State.attempt_fbFrame_of_lt (k : List Byte → Check State) (h : s.cfg.fbSize < s.flen.toNat) :
    s.attempt (s.fbFrame >>= k) = .next (s.raise .range) :=
  State.attempt_fbRange_of_out_of_bounds k (.inl h)

/-- An operation on a frame that lacks a byte is F_UNDEF. -/
theorem State.attempt_fbFrame_of_lacks (k : List Byte → Check State) (hflen : s.flen.toNat ≤ s.cfg.fbSize)
    (hlacks : s.fb.Lacks 0 s.flen.toNat) : s.attempt (s.fbFrame >>= k) = .next (s.raise .undef) :=
  State.attempt_fbRange_of_lacks k hflen (Nat.zero_add _).le hlacks

end FrameRead

/-! ### The footer (30_encoding.md R89) -/

section Footer
variable (body : List Byte) (hi lo mark : Byte)

/-- A byte behind the body is a byte of what follows it. -/
theorem byteAt_append_length_add (rest : List Byte) (k : Nat) : byteAt (body ++ rest) (body.length + k) = byteAt rest k := by
  rw [byteAt, byteAt, List.getD_append_right _ _ _ _ (Nat.le_add_right ..), Nat.add_sub_cancel_left]

theorem footer_length : (body ++ [hi, lo, mark]).length = body.length + 3 := List.length_append

/-- The last byte is the end marker's. -/
theorem byteAt_last_of_footer :
    byteAt (body ++ [hi, lo, mark]) ((body ++ [hi, lo, mark]).length - 1) = mark := by
  rw [footer_length]
  exact byteAt_append_length_add body _ 2

/-- The CRC16 covers the body. -/
theorem coveredBytes_of_footer : coveredBytes (body ++ [hi, lo, mark]) = body := by
  rw [coveredBytes, footer_length]
  exact List.take_left

/-- The CRC16 field is the first two bytes of the footer. -/
theorem crcField_of_footer : crcField (body ++ [hi, lo, mark]) = ofBe16 hi lo := by
  rw [crcField, footer_length]
  exact congrArg₂ ofBe16 (byteAt_append_length_add body _ 0) (byteAt_append_length_add body _ 1)

end Footer

/-! ### What FRM.VALIDATE makes of the frame (44_frame_rx.md R212) -/

section Validated
variable (s : State) {f body : List Byte} {hi lo mark : Byte}

theorem State.validated_of_length_lt (h : f.length < 3) :
    s.validated f = { s with valid := false, err := .reject .tooShort } := if_pos h

/-- A frame of at least three bytes is judged by its end marker, then by the CRC16 of its body. -/
theorem State.validated_of_footer :
    s.validated (body ++ [hi, lo, mark]) =
      if mark ≠ endMarker then { s with valid := false, err := .reject .endMarker }
      else if crc16Of body ≠ ofBe16 hi lo then { s with crc16 := crc16Of body, valid := false, err := .reject .crc16 }
      else { s with crc16 := crc16Of body, valid := true, err := .ok } := by
  have hlen : ¬ (body ++ [hi, lo, mark]).length < 3 := by rw [footer_length]; omega
  rw [State.validated, if_neg hlen, byteAt_last_of_footer, coveredBytes_of_footer, crcField_of_footer]

end Validated

/-! ### The operation -/

theorem decode_of_op_frmValidate {w : Word} (h : opField w = 0x50) : decode w = decodeNone w .frmValidate := by
  rw [decode, h]; rfl

theorem exec_frmValidate (s : State) :
    exec .frmValidate s = s.attempt (s.fbFrame >>= fun f => .ok (s.validated f)) := rfl

/-- FRM.VALIDATE on a frame that FB holds cannot fault. -/
theorem exec_frmValidate_of_hasFrame {s : State} {f : List Byte} (h : s.HasFrame f) :
    exec .frmValidate s = .next (s.validated f) := by
  rw [exec_frmValidate, State.attempt_fbFrame_of_hasFrame _ h, State.attempt_ok]

/-- Settles O46: the rejects and the acceptance are the branches of `State.validated_of_footer`, the faults those of reading
the frame. -/
theorem frmValidateChecksTheFrame : Obligations.FrmValidateChecksTheFrame := by
  refine ⟨encodedAs_none ⟨rfl, rfl, rfl⟩ (fun _ => decode_of_op_frmValidate) rfl,
    fun s => ⟨?tooShort, ?footer, ?range, ?undef⟩⟩
  case tooShort =>
    intro f hf hlen
    rw [exec_frmValidate_of_hasFrame hf, s.validated_of_length_lt hlen]
  case footer =>
    intro body hi lo mark hf
    rw [exec_frmValidate_of_hasFrame hf, s.validated_of_footer]
    refine ⟨fun (hmark : mark ≠ endMarker) => ?endMarker, fun (hmark : mark = endMarker) hcrc => ?mismatch,
      fun (hmark : mark = endMarker) hcrc => ?accepted⟩
    case endMarker => rw [if_pos hmark]
    case mismatch => rw [if_neg (not_not_intro hmark), if_pos hcrc]
    case accepted => rw [if_neg (not_not_intro hmark), if_neg (not_not_intro hcrc)]
  case range =>
    intro hflen
    rw [exec_frmValidate]
    exact State.attempt_fbFrame_of_lt _ hflen
  case undef =>
    intro hflen hlacks
    rw [exec_frmValidate]
    exact State.attempt_fbFrame_of_lacks _ hflen hlacks

end Sys2Proof.Machine
end

section
/-! PROOFS, 46_control_and_context.md R260. The change that each operation makes carries ERR along unread; an operation
other than NOP then writes its own outcome over it, so that where it ends does not depend on the ERR it started with. -/

namespace Sys2Proof.Machine

/-- The state with another outcome standing in ERR. -/
def State.withErr (e : Err) (s : State) : State := { s with err := e }

/-! ### Changes that carry ERR along

Each of them answers the same with another ERR put in before it as with that ERR put in after it. -/

section Carried
variable (e : Err) (s : State)

theorem State.fbPut_withErr (off : Nat) (bs : List Byte) :
    (s.withErr e).fbPut off bs = State.withErr e <$> s.fbPut off bs := by
  rw [State.fbPut, State.fbPut, apply_ite (State.withErr e <$> ·)]
  rfl

theorem State.absorbSha_withErr (bs : List Byte) :
    (s.withErr e).absorbSha bs = State.withErr e <$> s.absorbSha bs := by
  rw [State.absorbSha, State.absorbSha, map_bind]
  rfl

theorem State.finishSha_withErr : (s.withErr e).finishSha = State.withErr e <$> s.finishSha := by
  simp only [State.finishSha, map_bind, apply_ite (State.withErr e <$> ·)]
  rfl

theorem State.hashMessage_withErr (m : List Byte) :
    (s.withErr e).hashMessage m = State.withErr e <$> s.hashMessage m := by
  have hinit : (s.withErr e).initSha = s.initSha.withErr e := rfl
  simp only [State.hashMessage, hinit, State.absorbSha_withErr, bind_map_left, State.finishSha_withErr, map_bind]

theorem State.kdfRounds_withErr (k1 k2 : List Byte) (n : Nat) :
    State.kdfRounds k1 k2 n (s.withErr e) = State.withErr e <$> State.kdfRounds k1 k2 n s := by
  induction n generalizing s with
  | zero => rfl
  | succ n ih =>
    have hdigest : (s.withErr e).digest = s.digest := rfl
    simp only [State.kdfRounds, hdigest, State.hashMessage_withErr, bind_map_left, ih, map_bind]

theorem State.latchKey_withErr : (s.withErr e).latchKey = State.withErr e <$> s.latchKey := by
  rw [State.latchKey, State.latchKey, map_bind]
  rfl

theorem State.deriveKeyInto_withErr (k1 k2 : List Byte) :
    (s.withErr e).deriveKeyInto k1 k2 = State.withErr e <$> s.deriveKeyInto k1 k2 := by
  have hiter : (s.withErr e).iter = s.iter := rfl
  simp only [State.deriveKeyInto, hiter, State.hashMessage_withErr, bind_map_left, State.kdfRounds_withErr,
    State.latchKey_withErr, map_bind]

theorem State.scheduleKey_withErr : (s.withErr e).scheduleKey = State.withErr e <$> s.scheduleKey := by
  rw [State.scheduleKey, State.scheduleKey, map_bind]
  rfl

theorem State.xorKeystream_withErr (bs : List Byte) :
    (s.withErr e).xorKeystream bs = Prod.map id (State.withErr e) <$> s.xorKeystream bs := by
  rw [State.xorKeystream, State.xorKeystream, map_bind]
  rfl

theorem State.deriveAndCrypt_withErr (k1 k2 seg : List Byte) :
    (s.withErr e).deriveAndCrypt k1 k2 seg = Prod.map id (State.withErr e) <$> s.deriveAndCrypt k1 k2 seg := by
  simp only [State.deriveAndCrypt, State.deriveKeyInto_withErr, bind_map_left, State.scheduleKey_withErr,
    State.xorKeystream_withErr, map_bind]

end Carried

/-! ### Changes that write ERR -/

section Written
variable (e : Err) (s : State)

/-- Where an operation that may fault ends, when what it computes does not depend on ERR: a fault writes ERR too. -/
theorem State.attempt_withErr {r r' : Check State} (h : r' = r) : (s.withErr e).attempt r' = s.attempt r := by
  rw [h]
  cases r <;> rfl

/-- A change that carries ERR along is followed by writing the outcome ok over it. -/
theorem Check.succeed_withErr {r r' : Check State} (h : r' = State.withErr e <$> r) :
    (r' >>= fun t => Except.ok t.succeed : Check State) = (r >>= fun t => .ok t.succeed) := by
  rw [h, bind_map_left]
  rfl

theorem State.validated_withErr (f : List Byte) : (s.withErr e).validated f = s.validated f := rfl

theorem State.decoded_withErr (f : List Byte) (keys : Option (List Byte × List Byte)) :
    (s.withErr e).decoded f keys = s.decoded f keys := by
  rcases keys with _ | ⟨k1, k2⟩
  · rfl
  · have hmark : { s.withErr e with rxenc := true } = State.withErr e { s with rxenc := true } := rfl
    simp only [State.decoded, hmark, State.deriveAndCrypt_withErr, bind_map_left]
    rfl

theorem State.encoded_withErr (r : ReplyArgs) (keys : Option (List Byte × List Byte)) :
    (s.withErr e).encoded r keys = s.encoded r keys := by
  rcases keys with _ | ⟨k1, k2⟩
  · rfl
  · have hsum : { s.withErr e with sum8 := sum8Of (replyBody r) } =
      State.withErr e { s with sum8 := sum8Of (replyBody r) } := rfl
    simp only [State.encoded, hsum, State.deriveAndCrypt_withErr, bind_map_left]
    rfl

end Written

/-! ### The operations -/

/-- An operation that may fault goes on to a next state either way (60_exceptions.md R297). -/
theorem State.exists_attempt_eq_next (s : State) (r : Check State) : ∃ t, s.attempt r = .next t := by
  cases r <;> exact ⟨_, rfl⟩

/-- Every operation ends in a next state (93_implementation_defined.md Part 1). -/
theorem exec_eq_next (i : Instr) (s : State) : ∃ t, exec i s = .next t := by
  cases i with
  | nop | srst | crc16Init | crc16Updb | sum8Init | sum8Updb | shaInit => exact ⟨_, rfl⟩
  | _ => exact State.exists_attempt_eq_next s _

/-- No operation but NOP can tell which ERR it started with: it ends in the same state. -/
theorem exec_withErr {i : Instr} (hi : i ≠ .nop) (e : Err) (s : State) : exec i (s.withErr e) = exec i s := by
  cases i with
  | nop => exact absurd rfl hi
  | srst | crc16Init | crc16Updb | sum8Init | sum8Updb | shaInit => rfl
  | crc16Updr | sum8Updr | rc4Gen => exact s.attempt_withErr e rfl
  | crc16Put | sum8Put => exact s.attempt_withErr e (Check.succeed_withErr e (s.fbPut_withErr e _ _))
  | shaUpdb => exact s.attempt_withErr e (bind_congr fun _ => Check.succeed_withErr e (s.absorbSha_withErr e _))
  | shaUpdr | shaUpdk1 | shaUpdk2 | shaUpddg =>
    exact s.attempt_withErr e (bind_congr fun _ => bind_congr fun _ => Check.succeed_withErr e (s.absorbSha_withErr e _))
  | shaFin => exact s.attempt_withErr e (bind_congr fun _ => Check.succeed_withErr e (s.finishSha_withErr e))
  | kdfRun =>
    exact s.attempt_withErr e (bind_congr fun ks => Check.succeed_withErr e (s.deriveKeyInto_withErr e ks.1 ks.2))
  | kdfLatch => exact s.attempt_withErr e (Check.succeed_withErr e (s.latchKey_withErr e))
  | rc4Ksa => exact s.attempt_withErr e (Check.succeed_withErr e (s.scheduleKey_withErr e))
  | rc4Xorr =>
    refine s.attempt_withErr e (bind_congr fun _ => bind_congr fun _ => ?_)
    rw [State.xorKeystream_withErr, bind_map_left]
    rfl
  | frmValidate => exact s.attempt_withErr e (bind_congr fun f => congrArg Except.ok (s.validated_withErr e f))
  | frmDecode => exact s.attempt_withErr e (bind_congr fun f => bind_congr fun keys => s.decoded_withErr e f keys)
  | frmRx =>
    refine s.attempt_withErr e (bind_congr fun f => bind_congr fun _ => ?_)
    rw [State.validated_withErr]
  | frmEncode =>
    refine s.attempt_withErr e (if_congr .rfl rfl (bind_congr fun keys => bind_congr fun p => ?_))
    exact s.encoded_withErr e _ keys

theorem decode_of_op_nop {w : Word} (h : opField w = 0x00) : decode w = decodeNone w .nop := by rw [decode, h]; rfl

open Laws in
/-- Settles O17: the word is that of form none, and every other operation ends in the same state whatever ERR it started
with. -/
theorem nopChangesNothing : Obligations.NopChangesNothing := by
  refine ⟨encodedAs_none ⟨rfl, rfl, rfl⟩ (fun _ => decode_of_op_nop) rfl, legalOnly_none RowListed.nop rfl,
    fun _ => rfl, fun i s e hi => ?_⟩
  obtain ⟨t, ht⟩ := exec_eq_next i s
  exact ⟨t, t, ht, (exec_withErr hi e s).trans ht, rfl⟩

end Sys2Proof.Machine
end

section
/-! PROOFS, 46_control_and_context.md R261. What each change keeps of FAULT, of a readable derived key and of the secrets'
buffers; SRST alone drops them. -/

namespace Sys2Proof.Machine

/-- From `s` to `t` nothing is lost that only a reset takes away: FAULT recorded, a derived key readable, the secrets in
their buffers (46_control_and_context.md R261). -/
structure State.Keeps (s t : State) : Prop where
  fault : s.fault = true → t.fault = true
  key : s.dkv = true → s.dk.isSome → t.dkv = true ∧ t.dk.isSome
  k1b : t.k1b = s.k1b
  k2b : t.k2b = s.k2b

/-- Whatever the checks and reads of an operation answer, the state it computes has lost nothing of `s`. -/
def State.KeptBy (s : State) (r : Check State) : Prop := ∀ t, r = .ok t → s.Keeps t

/-! ### Rules -/

section Rules
variable {s t u : State} {α : Type}

theorem State.Keeps.trans (hst : s.Keeps t) (htu : t.Keeps u) : s.Keeps u where
  fault h := htu.fault (hst.fault h)
  key hv hk := (hst.key hv hk).elim htu.key
  k1b := htu.k1b.trans hst.k1b
  k2b := htu.k2b.trans hst.k2b

/-- A change that does not touch any of it. -/
theorem State.Keeps.of_untouched (hfault : t.fault = s.fault) (hdkv : t.dkv = s.dkv) (hdk : t.dk = s.dk)
    (hk1b : t.k1b = s.k1b) (hk2b : t.k2b = s.k2b) : s.Keeps t where
  fault h := hfault.trans h
  key hv hk := ⟨hdkv.trans hv, hdk ▸ hk⟩
  k1b := hk1b
  k2b := hk2b

/-- A change that leaves a derived key, and touches none of the rest. -/
theorem State.Keeps.of_derived (hfault : t.fault = s.fault) (hdkv : t.dkv = true) (hdk : t.dk.isSome)
    (hk1b : t.k1b = s.k1b) (hk2b : t.k2b = s.k2b) : s.Keeps t where
  fault h := hfault.trans h
  key _ _ := ⟨hdkv, hdk⟩
  k1b := hk1b
  k2b := hk2b

theorem State.KeptBy.of_keeps (h : s.Keeps t) : s.KeptBy (.ok t) := fun _ ht => Except.ok.inj ht ▸ h

/-- A read that comes first changes nothing. -/
theorem State.KeptBy.read {x : Check α} {f : α → Check State} (h : ∀ a, x = .ok a → s.KeptBy (f a)) :
    s.KeptBy (x >>= f) := fun t ht =>
  let ⟨a, ha, hf⟩ := Check.bind_eq_ok.1 ht
  h a ha t hf

/-- A change followed by the outcome ok. -/
theorem State.KeptBy.succeed {r : Check State} (h : s.KeptBy r) : s.KeptBy (r >>= fun t => .ok t.succeed) :=
  .read fun t ht => .of_keeps ((h t ht).trans (.of_untouched rfl rfl rfl rfl rfl))

/-- A fault keeps all of it, so an operation keeps what its change keeps. -/
theorem State.KeptBy.attempt {r : Check State} (h : s.KeptBy r) (ht : s.attempt r = .next t) : s.Keeps t := by
  rcases State.attempt_eq_next.1 ht with hok | ⟨c, -, rfl⟩
  · exact h t hok
  · exact ⟨fun _ => rfl, fun hv hk => ⟨hv, hk⟩, rfl, rfl⟩

end Rules

/-! ### The shared changes -/

theorem State.fbPut_keptBy (s : State) (off : Nat) (bs : List Byte) : s.KeptBy (s.fbPut off bs) := fun t ht => by
  obtain ⟨-, rfl⟩ := State.fbPut_eq_ok.1 ht
  exact .of_untouched rfl rfl rfl rfl rfl

theorem State.absorbSha_keptBy (s : State) (bs : List Byte) : s.KeptBy (s.absorbSha bs) := fun t ht => by
  obtain ⟨e, -, rfl⟩ := State.absorbSha_eq_ok.1 ht
  exact .of_untouched rfl rfl rfl rfl rfl

theorem State.finishSha_keptBy (s : State) : s.KeptBy s.finishSha := fun t ht => by
  obtain ⟨e, c, -, -, ⟨-, rfl⟩ | ⟨-, rfl⟩⟩ := State.finishSha_cases ht
  · exact .of_untouched rfl rfl rfl rfl rfl
  · exact .of_untouched rfl rfl rfl rfl rfl

theorem State.latchKey_keptBy (s : State) : s.KeptBy s.latchKey := fun t ht => by
  obtain ⟨d, -, -, rfl⟩ := State.latchKey_eq_ok.1 ht
  exact .of_derived rfl rfl rfl rfl rfl

theorem State.scheduleKey_keptBy (s : State) : s.KeptBy s.scheduleKey := fun t ht => by
  obtain ⟨k, -, -, rfl⟩ := State.scheduleKey_eq_ok.1 ht
  exact .of_untouched rfl rfl rfl rfl rfl

theorem State.xorKeystream_keeps {s t : State} {bs out : List Byte} (h : s.xorKeystream bs = .ok (out, t)) : s.Keeps t := by
  obtain ⟨c, -, -, rfl⟩ := State.xorKeystream_eq_ok.1 h
  exact .of_untouched rfl rfl rfl rfl rfl

/-- The derivation replaces the key by another one (42_sha256_kdf.md R179). -/
theorem State.deriveKeyInto_keptBy (s : State) (k1 k2 : List Byte) : s.KeptBy (s.deriveKeyInto k1 k2) := fun t ht => by
  obtain ⟨t', ht', hframe, -, hdkv, -, hdk, -⟩ := s.deriveKeyInto_spec k1 k2
  obtain rfl := Except.ok.inj (ht'.symm.trans ht)
  refine .of_derived ?_ hdkv hdk ?_ ?_ <;> rw [hframe]

theorem State.deriveAndCrypt_keeps {s t : State} {k1 k2 seg out : List Byte}
    (h : s.deriveAndCrypt k1 k2 seg = .ok (out, t)) : s.Keeps t := by
  obtain ⟨a, ha, h⟩ := Check.bind_eq_ok.1 h
  obtain ⟨b, hb, h⟩ := Check.bind_eq_ok.1 h
  exact ((s.deriveKeyInto_keptBy k1 k2 a ha).trans (a.scheduleKey_keptBy b hb)).trans (State.xorKeystream_keeps h)

theorem State.validated_keeps (s : State) (f : List Byte) : s.Keeps (s.validated f) :=
  .of_untouched (s.validated_fault f) (s.validated_dkv f) (s.validated_dk f) (s.validated_k1b f) (s.validated_k2b f)

theorem State.decoded_keptBy (s : State) (f : List Byte) (keys : Option (List Byte × List Byte)) :
    s.KeptBy (s.decoded f keys) := by
  unfold State.decoded
  split
  · exact .of_keeps (.of_untouched rfl rfl rfl rfl rfl)
  split
  · exact .of_keeps (.of_untouched rfl rfl rfl rfl rfl)
  cases keys with
  | none => exact .of_keeps (.of_untouched rfl rfl rfl rfl rfl)
  | some ks =>
    refine .read fun p hp => .of_keeps ?_
    have hmark : s.Keeps { s with rxenc := true } := .of_untouched rfl rfl rfl rfl rfl
    exact (hmark.trans (State.deriveAndCrypt_keeps hp)).trans (.of_untouched rfl rfl rfl rfl rfl)

theorem State.encoded_keptBy (s : State) (r : ReplyArgs) (keys : Option (List Byte × List Byte)) :
    s.KeptBy (s.encoded r keys) := by
  cases keys with
  | none => exact .of_keeps (.of_untouched rfl rfl rfl rfl rfl)
  | some ks =>
    refine .read fun p hp => .of_keeps ?_
    have hsum : s.Keeps { s with sum8 := sum8Of (replyBody r) } := .of_untouched rfl rfl rfl rfl rfl
    exact (hsum.trans (State.deriveAndCrypt_keeps hp)).trans (.of_untouched rfl rfl rfl rfl rfl)

/-! ### The operations -/

/-- FRM.RX keeps what its two parts keep (44_frame_rx.md R220). -/
theorem exec_frmRx_keeps {s t : State} (h : exec .frmRx s = .next t) : s.Keeps t := by
  refine State.KeptBy.attempt (.read fun f _ => .read fun keys _ => ?_) h
  have hvalid := s.validated_keeps f
  dsimp only
  split
  · refine .read fun u hu => ?_
    have hu := hvalid.trans (State.decoded_keptBy _ f keys u hu)
    split
    · exact .of_keeps (hu.trans (.of_untouched rfl rfl rfl rfl rfl))
    · exact .of_keeps hu
  · exact .of_keeps (hvalid.trans (.of_untouched rfl rfl rfl rfl rfl))

/-- No operation but SRST loses FAULT, a readable derived key or a secret. -/
theorem exec_keeps {i : Instr} (hi : i ≠ .srst) {s t : State} (h : exec i s = .next t) : s.Keeps t := by
  cases i with
  | srst => exact absurd rfl hi
  | nop | crc16Init | crc16Updb | sum8Init | sum8Updb | shaInit =>
    obtain rfl := Host.Outcome.next.inj h
    exact .of_untouched rfl rfl rfl rfl rfl
  | crc16Updr | sum8Updr | rc4Gen =>
    refine State.KeptBy.attempt (.read fun _ _ => .of_keeps ?_) h
    exact .of_untouched rfl rfl rfl rfl rfl
  | crc16Put | sum8Put => exact State.KeptBy.attempt (s.fbPut_keptBy _ _).succeed h
  | shaUpdb => exact State.KeptBy.attempt (.read fun _ _ => (s.absorbSha_keptBy _).succeed) h
  | shaUpdr | shaUpdk1 | shaUpdk2 | shaUpddg =>
    exact State.KeptBy.attempt (.read fun _ _ => .read fun _ _ => (s.absorbSha_keptBy _).succeed) h
  | shaFin => exact State.KeptBy.attempt (.read fun _ _ => s.finishSha_keptBy.succeed) h
  | kdfRun => exact State.KeptBy.attempt (.read fun ks _ => (s.deriveKeyInto_keptBy ks.1 ks.2).succeed) h
  | kdfLatch => exact State.KeptBy.attempt s.latchKey_keptBy.succeed h
  | rc4Ksa => exact State.KeptBy.attempt s.scheduleKey_keptBy.succeed h
  | rc4Xorr =>
    refine State.KeptBy.attempt (.read fun _ _ => .read fun _ _ => .read fun p hp => .of_keeps ?_) h
    exact (State.xorKeystream_keeps hp).trans (.of_untouched rfl rfl rfl rfl rfl)
  | frmValidate => exact State.KeptBy.attempt (.read fun f _ => .of_keeps (s.validated_keeps f)) h
  | frmDecode => exact State.KeptBy.attempt (.read fun f _ => .read fun keys _ => s.decoded_keptBy f keys) h
  | frmRx => exact exec_frmRx_keeps h
  | frmEncode =>
    refine State.KeptBy.attempt ?_ h
    split
    · exact fun _ ht => nomatch ht
    · exact .read fun keys _ => .read fun p _ => s.encoded_keptBy _ keys

theorem decode_of_op_srst {w : Word} (h : opField w = 0x01) : decode w = decodeNone w .srst := by rw [decode, h]; rfl

/-- Settles O16: SRST ends in `State.resetBlock`, and every other operation keeps what `State.Keeps` lists. -/
theorem srstResetsTheBlock : Obligations.SrstResetsTheBlock := by
  refine ⟨encodedAs_none ⟨rfl, rfl, rfl⟩ (fun _ => decode_of_op_srst) rfl, fun s => ⟨s.resetBlock, rfl, rfl⟩,
    fun i s t hi ht => ?_⟩
  obtain ⟨hfault, hkey, hk1b, hk2b⟩ := exec_keeps hi ht
  exact ⟨hfault, hkey, hk1b, hk2b⟩

end Sys2Proof.Machine
end

section
/-! PROOFS, 60_exceptions.md R294 to R297. Every operation but NOP and SRST attempts one change of the state, which carries FAULT
along unread and ends without a fault wherever it answers. -/

namespace Sys2Proof.Machine

/-- The state with another value standing in FAULT. -/
def State.withFault (f : Bool) (s : State) : State := { s with fault := f }

/-! ### Changes that carry FAULT along -/

/-- The change answers the same with another FAULT put in before it as with that FAULT put in after it. -/
def CarriesFault (r : State → Check State) : Prop :=
  ∀ (f : Bool) (s : State), r (s.withFault f) = State.withFault f <$> r s

section Rules
variable {α : Type} {r r' : State → Check State}

/-- A read that comes first does not see FAULT. -/
theorem CarriesFault.read {x : State → Check α} {k : State → α → Check State} (hx : ∀ f s, x (s.withFault f) = x s)
    (hk : ∀ a, CarriesFault fun s => k s a) : CarriesFault fun s => x s >>= k s := fun f s => by
  beta_reduce
  rw [hx, map_bind]
  exact bind_congr fun a => hk a f s

theorem CarriesFault.andThen (hr : CarriesFault r) (hr' : CarriesFault r') : CarriesFault fun s => r s >>= r' := fun f s => by
  beta_reduce
  rw [hr, bind_map_left, map_bind]
  exact bind_congr fun t => hr' f t

theorem CarriesFault.ite {p : State → Prop} [DecidablePred p] (hp : ∀ f s, p (s.withFault f) ↔ p s) (hr : CarriesFault r)
    (hr' : CarriesFault r') : CarriesFault fun s => if p s then r s else r' s := fun f s => by
  rw [apply_ite (State.withFault f <$> ·), ← hr, ← hr']
  exact if_congr (hp f s) rfl rfl

/-- What a change that carries FAULT along answers has the FAULT it started with. -/
theorem CarriesFault.fault_eq {s t : State} (hr : CarriesFault r) (h : r s = .ok t) : t.fault = s.fault := by
  have hcarried : r s = State.withFault s.fault <$> r s := hr s.fault s
  rw [h] at hcarried
  have ht : t = t.withFault s.fault := Except.ok.inj hcarried
  rw [ht]
  rfl

end Rules

/-! ### The shared changes -/

theorem carriesFault_fbPut (off : Nat) (bs : State → List Byte) (hbs : ∀ f s, bs (s.withFault f) = bs s) :
    CarriesFault fun s => s.fbPut off (bs s) := fun f s => by
  beta_reduce
  rw [hbs, State.fbPut, State.fbPut, apply_ite (State.withFault f <$> ·)]
  rfl

theorem carriesFault_absorbSha (bs : List Byte) : CarriesFault fun s => s.absorbSha bs :=
  .read (fun _ _ => rfl) fun _ _ _ => rfl

theorem carriesFault_finishSha : CarriesFault State.finishSha :=
  .read (fun _ _ => rfl) fun _ => .read (fun _ _ => rfl) fun _ =>
    .ite (fun _ _ => .rfl) (fun _ _ => rfl) fun _ _ => rfl

theorem carriesFault_hashMessage (m : List Byte) : CarriesFault fun s => s.hashMessage m :=
  .andThen (fun f s => carriesFault_absorbSha m f s.initSha) carriesFault_finishSha

theorem carriesFault_kdfRounds (k1 k2 : List Byte) (n : Nat) : CarriesFault (State.kdfRounds k1 k2 n) := by
  induction n with
  | zero => exact fun _ _ => rfl
  | succ n ih => exact .read (fun _ _ => rfl) fun _ => .andThen (carriesFault_hashMessage _) ih

theorem carriesFault_latchKey : CarriesFault State.latchKey := .read (fun _ _ => rfl) fun _ _ _ => rfl

theorem carriesFault_deriveKeyInto (k1 k2 : List Byte) : CarriesFault (State.deriveKeyInto k1 k2) := fun f s => by
  have hrest : CarriesFault fun t => State.kdfRounds k1 k2 s.iter.toNat t >>= State.latchKey :=
    .andThen (carriesFault_kdfRounds k1 k2 _) carriesFault_latchKey
  exact CarriesFault.andThen (carriesFault_hashMessage (k1 ++ k2)) hrest f s

theorem carriesFault_scheduleKey : CarriesFault State.scheduleKey := .read (fun _ _ => rfl) fun _ _ _ => rfl

/-- The keystream answers bytes too; a change made of the two carries FAULT along when the part after the keystream does. -/
theorem CarriesFault.xorKeystream (bs : List Byte) {k : List Byte → State → Check State}
    (hk : ∀ out, CarriesFault (k out)) :
    CarriesFault fun s => s.xorKeystream bs >>= fun p => k p.1 p.2 := fun f s => by
  simp only [State.xorKeystream, bind_assoc, pure_bind, map_bind]
  exact bind_congr fun c => hk _ f (s.setCipher (c.xorBytes bs).2)

theorem CarriesFault.deriveAndCrypt (k1 k2 seg : List Byte) {k : List Byte → State → Check State}
    (hk : ∀ out, CarriesFault (k out)) : CarriesFault fun s => s.deriveAndCrypt k1 k2 seg >>= fun p => k p.1 p.2 := by
  simp only [State.deriveAndCrypt, bind_assoc]
  exact .andThen (carriesFault_deriveKeyInto k1 k2) (.andThen carriesFault_scheduleKey (.xorKeystream seg hk))

theorem carriesFault_decoded (f : List Byte) (keys : Option (List Byte × List Byte)) :
    CarriesFault (State.decoded f keys) := by
  refine .ite (fun _ _ => .rfl) (fun _ _ => rfl) (.ite (fun _ _ => .rfl) (fun _ _ => rfl) ?_)
  cases keys with
  | none => exact fun _ _ => rfl
  | some ks =>
    exact fun b s => CarriesFault.deriveAndCrypt ks.1 ks.2 (segmentOf f)
      (k := fun seg t => .ok (State.reportSegment seg { t with fb := t.fb.writeRange fixedLen seg })) (fun _ _ _ => rfl) b
      { s with rxenc := true }

theorem carriesFault_encoded (r : ReplyArgs) (keys : Option (List Byte × List Byte)) :
    CarriesFault (State.encoded r keys) := by
  cases keys with
  | none => exact fun _ _ => rfl
  | some ks =>
    exact fun b s => CarriesFault.deriveAndCrypt ks.1 ks.2 (replySegment r) (k := fun seg t => .ok (t.storeReply r seg))
      (fun _ _ _ => rfl) b { s with sum8 := sum8Of (replyBody r) }

theorem State.validated_withFault (b : Bool) (s : State) (f : List Byte) :
    (s.withFault b).validated f = (s.validated f).withFault b := by
  simp only [State.validated, apply_ite (State.withFault b)]
  rfl

/-! ### What FRM.RX makes of the frame and the secrets it has read (44_frame_rx.md R220) -/

/-- The validation, and for a valid frame the decode step with its crc8 mismatch turned into a reject. -/
def State.received (f : List Byte) (keys : Option (List Byte × List Byte)) (s : State) : Check State :=
  if (s.validated f).valid then
    (s.validated f).decoded f keys >>= fun u =>
      if u.err = .ok ∧ u.crc8ok = false then .ok (u.reject .crc8) else .ok u
  else .ok { s.validated f with crc8ok := false, rxenc := false }

theorem exec_frmRx (s : State) :
    exec .frmRx s = s.attempt (s.fbFrame >>= fun f =>
      s.readKeysIf ((validateFrame f).toBool && decodeDerives f) >>= fun keys => s.received f keys) := rfl

theorem carriesFault_received (f : List Byte) (keys : Option (List Byte × List Byte)) :
    CarriesFault (State.received f keys) := by
  have hdecode : CarriesFault fun t => t.decoded f keys >>= fun u =>
      if u.err = .ok ∧ u.crc8ok = false then .ok (u.reject .crc8) else .ok u :=
    .andThen (carriesFault_decoded f keys) (.ite (fun _ _ => .rfl) (fun _ _ => rfl) fun _ _ => rfl)
  refine .ite (fun b s => ?valid) (fun b s => ?accepted) fun b s => ?rejected <;> rw [State.validated_withFault]
  case valid | rejected => rfl
  case accepted => exact hdecode b (s.validated f)

/-! ### Changes that end without a fault -/

/-- The change answers, and the outcome it leaves is ok or a reject. -/
def EndsWithoutFault (r : Check State) : Prop := ∃ t, r = .ok t ∧ ∀ c, t.err ≠ .fault c

section Ends
variable {α : Type} {s t : State} {r : Check State}

theorem EndsWithoutFault.read {x : Check α} {k : α → Check State} (hx : ∃ a, x = .ok a)
    (hk : ∀ a, EndsWithoutFault (k a)) :
    EndsWithoutFault (x >>= k) := by
  obtain ⟨a, rfl⟩ := hx
  exact hk a

theorem EndsWithoutFault.err_ne (h : EndsWithoutFault r) (hr : r = .ok t) (c : FaultCode) : t.err ≠ .fault c := by
  obtain ⟨u, hu, herr⟩ := h
  obtain rfl := Except.ok.inj (hu.symm.trans hr)
  exact herr c

theorem EndsWithoutFault.err_ne_of_attempt (h : EndsWithoutFault r) (ht : s.attempt r = .next t) (c : FaultCode) :
    t.err ≠ .fault c := by
  obtain ⟨u, rfl, herr⟩ := h
  obtain rfl := Host.Outcome.next.inj ht
  exact herr c

end Ends

theorem State.validated_err_ne (s : State) (f : List Byte) (c : FaultCode) : (s.validated f).err ≠ .fault c := by
  rcases s.validated_cases f with ⟨-, h⟩ | ⟨-, -, h⟩ | ⟨-, -, -, h⟩ | ⟨-, -, -, h⟩ <;> rw [h] <;> nofun

/-- The decode step ends without a fault on every frame: a short one is a reject. -/
theorem State.decoded_endsWithoutFault (s : State) (f : List Byte) (keys : Option (List Byte × List Byte)) :
    EndsWithoutFault (s.decoded f keys) := by
  unfold State.decoded
  split
  · exact ⟨_, rfl, nofun⟩
  split
  · exact ⟨_, rfl, nofun⟩
  cases keys with
  | none => exact ⟨_, rfl, nofun⟩
  | some ks =>
    obtain ⟨_, _, u, -, -, hu, -⟩ := State.deriveAndCrypt_spec ks.1 ks.2 (segmentOf f) { s with rxenc := true }
    exact .read ⟨_, hu⟩ fun _ => ⟨_, rfl, nofun⟩

theorem State.encoded_endsWithoutFault (s : State) (r : ReplyArgs) (keys : Option (List Byte × List Byte)) :
    EndsWithoutFault (s.encoded r keys) := by
  rcases s.encoded_cases r keys with ⟨-, h⟩ | ⟨_, _, _, _, -, -, h⟩ <;> exact ⟨_, h, nofun⟩

theorem State.received_endsWithoutFault (s : State) (f : List Byte) (keys : Option (List Byte × List Byte)) :
    EndsWithoutFault (s.received f keys) := by
  unfold State.received
  split
  · obtain ⟨u, hu, herr⟩ := (s.validated f).decoded_endsWithoutFault f keys
    rw [hu, Check.ok_bind]
    split
    · exact ⟨_, rfl, nofun⟩
    · exact ⟨u, rfl, herr⟩
  · exact ⟨_, rfl, s.validated_err_ne f⟩

/-! ### The operations -/

/-- What a change has to be for the operation that attempts it to end as 60_exceptions.md R292 to R294 say. -/
structure Orderly (r : State → Check State) : Prop where
  carries : CarriesFault r
  err_ne : ∀ s t, r s = .ok t → ∀ c, t.err ≠ .fault c

section OrderlyRules
variable {α : Type} {r : State → Check State}

theorem Orderly.read {x : State → Check α} {k : State → α → Check State} (hx : ∀ f s, x (s.withFault f) = x s)
    (hk : ∀ a, Orderly fun s => k s a) : Orderly fun s => x s >>= k s where
  carries := .read hx fun a => (hk a).carries
  err_ne s t ht :=
    let ⟨a, _, ha⟩ := Check.bind_eq_ok.1 ht
    (hk a).err_ne s t ha

theorem Orderly.guard {p : State → Prop} [DecidablePred p] {c : FaultCode} (hp : ∀ f s, p (s.withFault f) ↔ p s)
    (hr : Orderly r) : Orderly fun s => if p s then .error c else r s where
  carries := .ite hp (fun _ _ => rfl) hr.carries
  err_ne s t ht := by
    split at ht
    · cases ht
    · exact hr.err_ne s t ht

/-- A change whose last write leaves no fault in ERR ends without one. -/
theorem err_ne_of_bind_ok {x : Check α} {g : α → State} {t : State} (hg : ∀ a c, (g a).err ≠ .fault c)
    (ht : (x >>= fun a => .ok (g a)) = .ok t) (c : FaultCode) : t.err ≠ .fault c := by
  obtain ⟨a, -, ha⟩ := Check.bind_eq_ok.1 ht
  obtain rfl := Except.ok.inj ha
  exact hg a c

theorem Orderly.succeed (hr : CarriesFault r) : Orderly fun s => r s >>= fun t => .ok t.succeed where
  carries := .andThen hr fun _ _ => rfl
  err_ne _ _ ht := err_ne_of_bind_ok (g := State.succeed) (fun _ => nofun) ht

/-- A change that ends with the keystream and a last write. -/
theorem Orderly.xorKeystream (bs : List Byte) {g : List Byte → State → State}
    (hcarry : ∀ out f t, g out (t.withFault f) = (g out t).withFault f) (herr : ∀ out t c, (g out t).err ≠ .fault c) :
    Orderly fun s => s.xorKeystream bs >>= fun p => .ok (g p.1 p.2) where
  carries := .xorKeystream bs (k := fun out t => .ok (g out t)) fun out f t => congrArg Except.ok (hcarry out f t)
  err_ne _ _ ht := err_ne_of_bind_ok (α := List Byte × State) (g := fun p => g p.1 p.2) (fun p => herr p.1 p.2) ht

theorem Orderly.of_endsWithoutFault (hr : CarriesFault r) (h : ∀ s, EndsWithoutFault (r s)) : Orderly r where
  carries := hr
  err_ne s _ ht := (h s).err_ne ht

end OrderlyRules

/-- The operation is an attempt at one orderly change, all or nothing (00_scope.md R6). -/
def Instr.Attempts (i : Instr) : Prop := ∃ r : State → Check State, (∀ s, exec i s = s.attempt (r s)) ∧ Orderly r

/-- An operation with no check at all. -/
theorem Instr.Attempts.of_next {i : Instr} {g : State → State} (hi : ∀ s, exec i s = .next (g s))
    (hcarry : ∀ f s, g (s.withFault f) = (g s).withFault f) (herr : ∀ s c, (g s).err ≠ .fault c) : Instr.Attempts i :=
  ⟨fun s => .ok (g s), hi, .of_endsWithoutFault (fun f s => congrArg Except.ok (hcarry f s)) fun s => ⟨g s, rfl, herr s⟩⟩

/-- Every operation but NOP, which leaves even ERR, and SRST, which clears FAULT. -/
theorem Instr.attempts {i : Instr} (hnop : i ≠ .nop) (hsrst : i ≠ .srst) : Instr.Attempts i := by
  cases i with
  | nop => exact absurd rfl hnop
  | srst => exact absurd rfl hsrst
  | crc16Init | crc16Updb | sum8Init | sum8Updb | shaInit =>
    exact .of_next (fun _ => rfl) (fun _ _ => rfl) fun _ => nofun
  | crc16Updr | sum8Updr | rc4Gen =>
    exact ⟨_, fun _ => rfl, .read (fun _ _ => rfl) fun _ =>
      .of_endsWithoutFault (fun _ _ => rfl) fun _ => ⟨_, rfl, nofun⟩⟩
  | crc16Put => exact ⟨_, fun _ => rfl, .succeed (carriesFault_fbPut _ (fun s => be16 s.crc16) fun _ _ => rfl)⟩
  | sum8Put => exact ⟨_, fun _ => rfl, .succeed (carriesFault_fbPut _ (fun s => [s.sum8]) fun _ _ => rfl)⟩
  | shaUpdb => exact ⟨_, fun _ => rfl, .read (fun _ _ => rfl) fun _ => .succeed (carriesFault_absorbSha _)⟩
  | shaUpdr | shaUpdk1 | shaUpdk2 | shaUpddg =>
    exact ⟨_, fun _ => rfl, .read (fun _ _ => rfl) fun _ => .read (fun _ _ => rfl) fun _ =>
      .succeed (carriesFault_absorbSha _)⟩
  | shaFin => exact ⟨_, fun _ => rfl, .read (fun _ _ => rfl) fun _ => .succeed carriesFault_finishSha⟩
  | kdfRun => exact ⟨_, fun _ => rfl, .read (fun _ _ => rfl) fun ks => .succeed (carriesFault_deriveKeyInto ks.1 ks.2)⟩
  | kdfLatch => exact ⟨_, fun _ => rfl, .succeed carriesFault_latchKey⟩
  | rc4Ksa => exact ⟨_, fun _ => rfl, .succeed carriesFault_scheduleKey⟩
  | rc4Xorr off len =>
    exact ⟨_, exec_rc4Xorr off len, .read (fun _ _ => rfl) fun _ => .read (fun _ _ => rfl) fun bs =>
      .xorKeystream bs (g := fun out t => { t with fb := t.fb.writeRange off out, err := .ok }) (fun _ _ _ => rfl)
        fun _ _ => nofun⟩
  | frmValidate =>
    exact ⟨_, fun _ => rfl, .read (fun _ _ => rfl) fun f =>
      .of_endsWithoutFault (fun b s => congrArg Except.ok (s.validated_withFault b f)) fun s =>
        ⟨_, rfl, s.validated_err_ne f⟩⟩
  | frmDecode =>
    exact ⟨_, fun _ => rfl, .read (fun _ _ => rfl) fun f => .read (fun _ _ => rfl) fun keys =>
      .of_endsWithoutFault (carriesFault_decoded f keys) fun s => s.decoded_endsWithoutFault f keys⟩
  | frmRx =>
    exact ⟨_, exec_frmRx, .read (fun _ _ => rfl) fun f => .read (fun _ _ => rfl) fun keys =>
      .of_endsWithoutFault (carriesFault_received f keys) fun s => s.received_endsWithoutFault f keys⟩
  | frmEncode =>
    exact ⟨_, fun _ => rfl, .guard (fun _ _ => .rfl) (.read (fun _ _ => rfl) fun keys => .read (fun _ _ => rfl) fun p =>
      .of_endsWithoutFault (fun b s => carriesFault_encoded (s.replyArgs p.1 p.2) keys b s) fun s =>
        s.encoded_endsWithoutFault _ keys)⟩

/-- How an operation other than NOP and SRST can end: the fault raised on the state before it, or an outcome that is no
fault with FAULT as before (60_exceptions.md R292 to R294, R296). -/
theorem exec_cases {i : Instr} (hnop : i ≠ .nop) (hsrst : i ≠ .srst) {s t : State} (h : exec i s = .next t) :
    (∃ c, t = s.raise c) ∨ ((∀ c, t.err ≠ .fault c) ∧ t.fault = s.fault) := by
  obtain ⟨r, hexec, hr⟩ := Instr.attempts hnop hsrst
  rcases State.attempt_eq_next.1 ((hexec s).symm.trans h) with hok | ⟨c, -, hraise⟩
  · exact .inr ⟨hr.err_ne s t hok, hr.carries.fault_eq hok⟩
  · exact .inl ⟨c, hraise⟩

/-- No operation but NOP does anything else when it starts with another FAULT. -/
theorem exec_withFault {i : Instr} (hnop : i ≠ .nop) {s t : State} (h : exec i s = .next t) (f : Bool) :
    ∃ f', exec i (s.withFault f) = .next (t.withFault f') := by
  by_cases hsrst : i = .srst
  · subst hsrst
    obtain rfl := Host.Outcome.next.inj h
    exact ⟨false, rfl⟩
  obtain ⟨r, hexec, hr⟩ := Instr.attempts hnop hsrst
  rw [hexec, hr.carries]
  rcases State.attempt_eq_next.1 ((hexec s).symm.trans h) with hok | ⟨c, herror, rfl⟩
  · rw [hok]
    exact ⟨f, rfl⟩
  · rw [herror]
    exact ⟨true, rfl⟩

end Sys2Proof.Machine
end

section
/-! PROOFS, 60_exceptions.md R294. With the buffers defined and the length registers legal, every read of a frame operation
answers. -/

namespace Sys2Proof.Machine

/-! ### The reads of a loaded block -/

theorem Check.exists_eq_ok {α : Type} {x : Check α} (h : ∀ c, x ≠ .error c) : ∃ a, x = .ok a := by
  cases x with
  | error c => exact absurd rfl (h c)
  | ok a => exact ⟨a, rfl⟩

section Loaded
variable {s : State}

theorem State.Loaded.not_lacks (h : s.Loaded) (b : Buf) {n : Nat} (hn : n ≤ b.size s.cfg) : ¬ (s.buffer b).Lacks 0 n := by
  rintro ⟨k, hk, hnone⟩
  have hsome := h.1 b (0 + k) (by omega)
  rw [hnone] at hsome
  cases hsome

theorem State.Loaded.exists_fbFrame (h : s.Loaded) : ∃ f, s.fbFrame = .ok f := by
  have ⟨_, hflen, _⟩ := h
  refine Check.exists_eq_ok fun c hc => ?_
  rcases State.fbRange_eq_error.1 hc with ⟨-, hbound⟩ | ⟨-, -, -, hlacks⟩
  · omega
  · exact h.not_lacks .fb hflen hlacks

theorem State.Loaded.exists_readKeysIf (h : s.Loaded) (derives : Bool) : ∃ keys, s.readKeysIf derives = .ok keys := by
  have ⟨_, _, hk1, hk2, _⟩ := h
  have ⟨ks, hks⟩ : ∃ ks, s.readKeys = .ok ks := by
    refine Check.exists_eq_ok fun c hc => ?_
    rcases State.readKeys_eq_error.1 hc with ⟨-, hbound⟩ | ⟨-, -, -, hlacks | hlacks⟩
    · omega
    · exact h.not_lacks .k1b hk1 hlacks
    · exact h.not_lacks .k2b hk2 hlacks
  cases derives with
  | false => exact ⟨none, rfl⟩
  | true => exact ⟨some ks, by simp [State.readKeysIf, hks, pure, Except.pure]⟩

theorem State.Loaded.exists_readTx (h : s.Loaded) : ∃ p, s.readTx s.txxlen.toNat = .ok p := by
  have ⟨_, _, _, _, hx⟩ := h
  refine Check.exists_eq_ok fun c hc => ?_
  obtain ⟨-, hlacks | hlacks⟩ := State.readTx_eq_error.1 hc
  · exact h.not_lacks .txdev (Nat.le_refl 10) hlacks
  · exact h.not_lacks .txx hx hlacks

/-! ### The frame operations -/

theorem exec_frmEncode_of_le (h : s.txxlen.toNat ≤ txxMax) :
    exec .frmEncode s = s.attempt (s.readKeysIf (s.txctl == 1) >>= fun keys =>
      s.readTx s.txxlen.toNat >>= fun p => s.encoded (s.replyArgs p.1 p.2) keys) :=
  congrArg s.attempt (if_neg (Nat.not_lt.2 h))

/-- No frame content is a fault (60_exceptions.md R294). -/
theorem State.Loaded.exec_err_ne (h : s.Loaded) {i : Instr} {t : State}
    (hi : i ∈ [Instr.frmValidate, .frmDecode, .frmRx, .frmEncode]) (ht : exec i s = .next t) (c : FaultCode) :
    t.err ≠ .fault c := by
  simp only [List.mem_cons, List.not_mem_nil, or_false] at hi
  rcases hi with rfl | rfl | rfl | rfl
  · have hends (f) : EndsWithoutFault (.ok (s.validated f)) := ⟨_, rfl, s.validated_err_ne f⟩
    exact EndsWithoutFault.err_ne_of_attempt (.read h.exists_fbFrame hends) ht c
  · have hends (f) := EndsWithoutFault.read (h.exists_readKeysIf (decodeDerives f)) (s.decoded_endsWithoutFault f)
    exact EndsWithoutFault.err_ne_of_attempt (.read h.exists_fbFrame hends) ht c
  · have hends (f) := EndsWithoutFault.read (h.exists_readKeysIf ((validateFrame f).toBool && decodeDerives f))
      (s.received_endsWithoutFault f)
    exact EndsWithoutFault.err_ne_of_attempt (.read h.exists_fbFrame hends) ht c
  · have ⟨_, _, _, _, hx⟩ := h
    rw [exec_frmEncode_of_le hx] at ht
    have hends (keys) := EndsWithoutFault.read h.exists_readTx fun p => s.encoded_endsWithoutFault (s.replyArgs p.1 p.2) keys
    exact EndsWithoutFault.err_ne_of_attempt (.read (h.exists_readKeysIf _) hends) ht c

end Loaded

/-! ### The obligation -/

/-- Settles O8: an operation that ends in a fault has raised it on the state before it, and the reads of a loaded block
raise none. -/
theorem faultingOperationChangesNothingElse : Obligations.FaultingOperationChangesNothingElse := by
  refine ⟨fun i s t c hnop ht herr => ?_, fun i s t hi hloaded ht => hloaded.exec_err_ne hi ht⟩
  by_cases hsrst : i = .srst
  · subst hsrst
    obtain rfl := Host.Outcome.next.inj ht
    cases herr
  · rcases exec_cases hnop hsrst ht with ⟨c', rfl⟩ | ⟨hne, -⟩
    · obtain rfl := Err.fault.inj herr
      rfl
    · exact absurd herr (hne c)

end Sys2Proof.Machine
end

section
/-! PROOFS, 60_exceptions.md R297. A command ends alike whatever FAULT and ERR it starts with. -/

namespace Sys2Proof.Machine

theorem State.command_of_decode_ok {w : Word} {i : Instr} (h : decode w = .ok i) (s : State) : s.command w = exec i s := by
  rw [State.command, h]

/-- Settles O10: an illegal word and NOP do not read the state, and every other operation carries both along unread. -/
theorem noCommandReadsFaultOrErr : Obligations.NoCommandReadsFaultOrErr := by
  intro s w e f
  cases hw : decode w with
  | error d =>
    exact ⟨_, _, State.command_of_decode_error hw s, State.command_of_decode_error hw _, rfl, fun _ => rfl⟩
  | ok i =>
    simp only [State.command_of_decode_ok hw]
    by_cases hnop : i = .nop
    · subst hnop
      exact ⟨_, _, rfl, rfl, rfl, fun h => absurd rfl h⟩
    · obtain ⟨t, ht⟩ := exec_eq_next i s
      obtain ⟨f', ht'⟩ := exec_withFault hnop ht f
      exact ⟨t, t.withFault f', ht, (exec_withErr hnop e (s.withFault f)).trans ht', rfl, fun _ => rfl⟩

end Sys2Proof.Machine
end

section
/-! PROOFS, 60_exceptions.md R296. Which events keep FAULT: all but the platform's reset and the word of SRST. -/

namespace Sys2Proof.Machine

/-- SRST has one word (30_encoding.md R104). -/
theorem eq_of_decode_srst {w : Word} (h : decode w = .ok .srst) : w = 0x01000000 := by
  rcases (everyWordIsOneOperationOrIllegal w).2 with ⟨-, -, -, i, hi, -, henc⟩ | ⟨-, ⟨-, he⟩ | ⟨-, he⟩⟩
  · obtain rfl := Except.ok.inj (h.symm.trans hi)
    exact henc.symm
  · cases h.symm.trans he
  · cases h.symm.trans he

theorem State.command_keeps_fault {s t : State} {w : Word} (hw : w ≠ 0x01000000) (h : s.command w = .next t)
    (hs : s.fault = true) : t.fault = true := by
  cases hd : decode w with
  | error d =>
    rw [State.command_of_decode_error hd] at h
    obtain rfl := Host.Outcome.next.inj h
    rfl
  | ok i =>
    rw [State.command_of_decode_ok hd] at h
    have hsrst : i ≠ .srst := fun hi => hw (eq_of_decode_srst (hi ▸ hd))
    exact (exec_keeps hsrst h).fault hs

/-! ### The host's accesses -/

@[simp] theorem State.hostRead32_fault (s : State) (a : Nat) : (s.hostRead32 a).fault = s.fault := by
  rcases s.hostRead32_cases a with ⟨-, h⟩ | ⟨_, _, -, -, h⟩ | ⟨_, -, -, h⟩ <;> rw [h] <;> rfl

@[simp] theorem State.hostRead8_fault (s : State) (a : Nat) : (s.hostRead8 a).fault = s.fault := by
  rcases s.hostRead8_cases a with ⟨-, h⟩ | ⟨_, _, -, -, h⟩ | ⟨_, -, -, h⟩ <;> rw [h] <;> rfl

@[simp] theorem State.hostWrite8_fault (s : State) (a : Nat) (v : Byte) : (s.hostWrite8 a v).fault = s.fault := by
  rcases s.hostWrite8_cases a v with ⟨-, h⟩ | ⟨_, -, h⟩
  · rw [h]
    rfl
  · rw [h, State.answer_fault, State.setBuffer_fault]

theorem State.hostWrite32_keeps_fault {s t : State} {a : Nat} {v : Word} (hsrst : ¬ (a = 0 ∧ v = 0x01000000))
    (h : s.hostWrite32 a v = .next t) (hs : s.fault = true) : t.fault = true := by
  rcases s.hostWrite32_cases a v with ⟨-, hw⟩ | ⟨ha, hw⟩ | ⟨r, -, -, hw⟩ <;> rw [hw] at h
  · obtain rfl := Host.Outcome.next.inj h
    exact hs
  · exact State.command_keeps_fault (fun hv => hsrst ⟨ha, hv⟩) h hs
  · obtain rfl := Host.Outcome.next.inj h
    rwa [State.answer_fault, State.writeReg_fault]

/-- Every event but the platform's reset and a write of SRST's word to CMD keeps FAULT. -/
theorem State.perform_keeps_fault {s t : State} {e : HostEvent} (hreset : e ≠ .platformReset)
    (hsrst : e ≠ .write32 0x0000 0x01000000) (h : s.perform e = .next t) (hs : s.fault = true) : t.fault = true := by
  cases e with
  | platformReset => exact absurd rfl hreset
  | write32 a v => exact State.hostWrite32_keeps_fault (fun ⟨ha, hv⟩ => hsrst (by rw [ha, hv])) h hs
  | read16 | write16 =>
    obtain rfl := Host.Outcome.next.inj h
    exact hs
  | read8 | write8 | read32 =>
    obtain rfl := Host.Outcome.next.inj h
    simpa using hs

theorem step_clears_fault {s t : State} (h : step s = .next t) (hs : s.fault = true) (ht : t.fault = false) :
    ∃ es, s.host = .platformReset :: es ∨ s.host = .write32 0x0000 0x01000000 :: es := by
  cases hhost : s.host with
  | nil =>
    rw [step_idle hhost] at h
    obtain rfl := Host.Outcome.next.inj h
    cases hs.symm.trans ht
  | cons e es =>
    rw [step_event hhost] at h
    refine ⟨es, ?_⟩
    by_contra hother
    obtain ⟨hreset, hsrst⟩ := not_or.1 hother
    have hkept := State.perform_keeps_fault (fun he => hreset (by rw [he])) (fun he => hsrst (by rw [he])) h hs
    cases hkept.symm.trans ht

/-! ### The obligation -/

/-- Settles O9: an operation other than NOP and SRST either raises a fault or leaves FAULT, and no event but the two resets
clears it. -/
theorem faultBitIsSticky : Obligations.FaultBitIsSticky := by
  refine ⟨fun i s t ht hnop hsrst => ?_, fun s w hw => ?_, fun _ => rfl, fun s t ht => ?_, fun s t es hs ht => ?_,
    fun s t => step_clears_fault⟩
  · rcases exec_cases hnop hsrst ht with ⟨c, rfl⟩ | ⟨hne, hfault⟩
    · exact iff_of_true rfl (.inr ⟨c, rfl⟩)
    · rw [hfault]
      exact ⟨.inl, fun h => h.resolve_right fun ⟨c, hc⟩ => hne c hc⟩
  · cases hd : decode w with
    | error d => exact ⟨_, State.command_of_decode_error hd s, rfl⟩
    | ok i => exact absurd hd (hw i)
  · obtain rfl := Host.Outcome.next.inj ht
    rfl
  · rw [step_event hs] at ht
    obtain rfl := Host.Outcome.next.inj ht
    rfl

end Sys2Proof.Machine
end

section
/-! PROOFS, 30_encoding.md R100 to R104. The decoder and the encoder undo each other: every operand that the decoder answers is
the number of a 12-bit field, and every operation that fits its fields is read back from its own word. -/

namespace Sys2Proof.Machine

/-! ### What the decoder answers fits the operand fields -/

section FormsFit
variable {w : Word} {i j : Instr}

theorem decodeNone_wellFormed (hi : i.WellFormed) (h : decodeNone w i = .ok j) : j.WellFormed := by
  obtain ⟨-, -, rfl⟩ := decodeNone_eq_ok.1 h
  exact hi

theorem decodeImm8_wellFormed {mk : Byte → Instr} (hmk : ∀ imm, (mk imm).WellFormed) (h : decodeImm8 w mk = .ok j) :
    j.WellFormed := by
  obtain ⟨-, -, rfl⟩ := decodeImm8_eq_ok.1 h
  exact hmk _

theorem decodeRange_wellFormed {mk : Nat → Nat → Instr} (h : decodeRange w mk = .ok j)
    (hmk : ∀ off len, fitsField off ∧ fitsField len → (mk off len).WellFormed) : j.WellFormed := by
  obtain rfl := Except.ok.inj h
  exact hmk _ _ ⟨(aField w).isLt, (bField w).isLt⟩

theorem decodeOff_wellFormed {mk : Nat → Instr} (hmk : ∀ off, fitsField off → (mk off).WellFormed)
    (h : decodeOff w mk = .ok j) : j.WellFormed := by
  obtain ⟨-, rfl⟩ := decodeOff_eq_ok.1 h
  exact hmk _ (aField w).isLt

end FormsFit

/-- The decoder answers only operations that a word can carry; each opcode by its form. -/
theorem decode_wellFormed {w : Word} {i : Instr} (h : decode w = .ok i) : i.WellFormed := by
  unfold decode at h
  split at h
  any_goals exact decodeNone_wellFormed trivial h
  any_goals exact decodeImm8_wellFormed (fun _ => trivial) h
  any_goals exact decodeRange_wellFormed h fun _ _ hfits => hfits
  any_goals exact decodeOff_wellFormed (fun _ hoff => hoff) h
  case h_27 => cases h

/-- A word that decodes is the word of the operation it decodes to. -/
theorem encode_of_decode {w : Word} {i : Instr} (h : decode w = .ok i) : encode i = w := by
  rcases decode_cases w with ⟨r, -, -, ⟨-, j, hj, -, henc⟩ | ⟨-, herr⟩⟩ | ⟨-, herr⟩
  · obtain rfl := Except.ok.inj (h.symm.trans hj)
    exact henc
  · cases h.symm.trans herr
  · cases h.symm.trans herr

/-- Settles O2: the row that matched gives the word back, and the operands are numbers of its fields. -/
theorem decodedWordIsTheEncoding : Obligations.DecodedWordIsTheEncoding :=
  fun _ _ h => ⟨decode_wellFormed h, encode_of_decode h⟩

/-! ### Every operation is read back from its own word -/

theorem decode_encode_of_encodedAs {i : Instr} {w : Word} (h : EncodedAs i w) : decode (encode i) = .ok i := by
  obtain ⟨hdec, henc⟩ := h
  rw [henc, hdec]

/-- A number that fits its field comes back from it. -/
theorem toNat_ofNat_of_fitsField {n : Nat} (h : fitsField n) : (BitVec.ofNat 12 n).toNat = n :=
  (BitVec.toNat_ofNat n 12).trans (Nat.mod_eq_of_lt h)

/-- The word of a range operation whose operands fit carries that operation. -/
theorem encodedAs_range_of_fits {op : Byte} {m : String} {mk : Nat → Nat → Instr} {off len : Nat}
    (hmk : ∀ off len, (mk off len).Carries ⟨op, m, .range⟩ (BitVec.ofNat 12 off) (BitVec.ofNat 12 len))
    (hdec : ∀ w, opField w = op → decode w = decodeRange w mk) (hoff : fitsField off) (hlen : fitsField len) :
    EncodedAs (mk off len) (rangeWord (op.setWidth 32) (BitVec.ofNat 12 off) (BitVec.ofNat 12 len)) := by
  have h := encodedAs_range hmk hdec (BitVec.setWidth_setWidth_of_le op (by decide)) (BitVec.ofNat 12 off) (BitVec.ofNat 12 len)
  rwa [toNat_ofNat_of_fitsField hoff, toNat_ofNat_of_fitsField hlen] at h

/-- The word of an offset operation whose operand fits carries that operation. -/
theorem encodedAs_off_of_fits {op : Byte} {m : String} {mk : Nat → Instr} {off : Nat}
    (hmk : ∀ off, (mk off).Carries ⟨op, m, .off⟩ (BitVec.ofNat 12 off) 0)
    (hdec : ∀ w, opField w = op → decode w = decodeOff w mk) (hoff : fitsField off) :
    EncodedAs (mk off) (offWord (op.setWidth 32) (BitVec.ofNat 12 off)) := by
  have h := encodedAs_off hmk hdec (BitVec.setWidth_setWidth_of_le op (by decide)) (BitVec.ofNat 12 off)
  rwa [toNat_ofNat_of_fitsField hoff] at h

/-- Settles O1: each operation's word, by its form, decodes to it; the opcode picks the form's decoder. -/
theorem encodedOperationDecodesToItself : Obligations.EncodedOperationDecodesToItself := by
  intro i hwf
  cases i with
  | nop | srst | crc16Init | sum8Init | shaInit | shaUpdk1 | shaUpdk2 | shaUpddg | shaFin | kdfRun | kdfLatch | rc4Ksa
  | rc4Gen | frmValidate | frmDecode | frmRx | frmEncode =>
    exact decode_encode_of_encodedAs (encodedAs_none ⟨rfl, rfl, rfl⟩ (fun w h => by rw [decode, h]; rfl) rfl)
  | crc16Updb imm | sum8Updb imm | shaUpdb imm =>
    exact decode_encode_of_encodedAs
      (encodedAs_imm8 (fun _ => ⟨rfl, rfl, rfl⟩) (fun w h => by rw [decode, h]; rfl) rfl imm)
  | crc16Updr off len | sum8Updr off len | shaUpdr off len | rc4Xorr off len =>
    exact decode_encode_of_encodedAs
      (encodedAs_range_of_fits (fun _ _ => ⟨rfl, rfl, rfl⟩) (fun w h => by rw [decode, h]; rfl) hwf.1 hwf.2)
  | crc16Put off | sum8Put off =>
    exact decode_encode_of_encodedAs
      (encodedAs_off_of_fits (fun _ => ⟨rfl, rfl, rfl⟩) (fun w h => by rw [decode, h]; rfl) hwf)

end Sys2Proof.Machine
end

section
/-! PROOFS, 10_state.md R23, 20_memory.md R75, 93_implementation_defined.md Part 1. Every event is performed to an end, and a legal
word written to CMD is the operation it carries. -/

namespace Sys2Proof.Machine

/-- Settles O4: OP picks the form, and the fields are the operands. -/
theorem exampleWordsDecode : Obligations.ExampleWordsDecode := ⟨rfl, rfl, rfl, rfl, rfl⟩

/-- Settles O5: the event answers the write and runs the command, whose word decodes. -/
theorem stepRunsTheDecodedOperation : Obligations.StepRunsTheDecodedOperation := by
  intro s w es i hs hi
  rw [step_write32_cmd hs, State.command_of_decode_ok hi]
  rfl

/-- A command ends in a next state, whether its word is legal or not. -/
theorem State.exists_command_eq_next (s : State) (w : Word) : ∃ t, s.command w = .next t := by
  cases hw : decode w with
  | error e => exact ⟨_, State.command_of_decode_error hw s⟩
  | ok i =>
    rw [State.command_of_decode_ok hw]
    exact exec_eq_next i s

/-- Every event of the host is performed. -/
theorem State.exists_perform_eq_next (s : State) (e : HostEvent) : ∃ t, s.perform e = .next t := by
  cases e with
  | write32 a v =>
    show ∃ t, s.hostWrite32 a v = .next t
    rcases s.hostWrite32_cases a v with ⟨-, h⟩ | ⟨-, h⟩ | ⟨r, -, -, h⟩ <;> rw [h]
    · exact ⟨_, rfl⟩
    · exact State.exists_command_eq_next _ v
    · exact ⟨_, rfl⟩
  | read8 | write8 | read16 | write16 | read32 | platformReset => exact ⟨_, rfl⟩

/-- Settles O7: a step without an event stays, and with one performs it. -/
theorem everyStepCompletes : Obligations.EveryStepCompletes := by
  intro s
  cases hs : s.host with
  | nil => exact ⟨s, step_idle hs⟩
  | cons e es =>
    rw [step_event hs]
    exact State.exists_perform_eq_next _ e

/-- Settles O15: both events end in `State.resetBlock`, the one as the platform's reset, the other as SRST. -/
theorem srstAndPlatformResetAgree : Obligations.SrstAndPlatformResetAgree := by
  rintro s es (hs | hs)
  · exact step_event hs
  · exact stepRunsTheDecodedOperation s _ es .srst hs (encodedAs_none ⟨rfl, rfl, rfl⟩ (fun _ => decode_of_op_srst) rfl).1

end Sys2Proof.Machine
end

section
/-! PROOFS, 10_state.md R26, 60_exceptions.md R298 step 2. An operation that needs a validity flag checks it first. -/

namespace Sys2Proof.Machine

section ClearedFlags
variable {s : State} {α : Type}

/-- An operation on the open message is F_NOSHA while SHAV is 0. -/
theorem State.attempt_openSha_of_closed (k : ShaEngine → Check State) (h : s.shav = false) :
    s.attempt (s.openSha >>= k) = .next (s.raise .noSha) := by
  rw [State.openSha_eq_error.2 ⟨rfl, h⟩]
  rfl

/-- With a message open it goes on. -/
theorem State.attempt_openSha_of_open (k : ShaEngine → Check State) (h : s.shav = true) :
    s.attempt (s.openSha >>= k) = s.attempt (k s.sha) := by
  rw [State.openSha_eq_ok.2 ⟨h, rfl⟩]
  rfl

/-- An operation on the keyed cipher state is F_NOKS while RC4V is 0. -/
theorem State.attempt_cipher_of_cleared (k : Rc4 → Check State) (h : s.rc4v = false) :
    s.attempt (s.cipher >>= k) = .next (s.raise .noKs) := by
  rw [State.cipher_eq_error.2 (.inl ⟨rfl, h⟩)]
  rfl

end ClearedFlags

/-- Settles O21: the check of the flag comes first, that of DGV in SHA.UPDDG right after the one of SHAV. -/
theorem clearedValidityFlagFaults : Obligations.ClearedValidityFlagFaults := by
  intro s imm off len
  refine ⟨fun hshav => ?noSha, fun hshav hdgv => ?noDg, fun hdgv => (kdfLatchCopiesTheDigest.2 s).2 hdgv,
    fun hdkv => (rc4KsaSchedulesTheKey.2 s).2 hdkv, fun hrc4v => ?noKs⟩
  case noSha =>
    exact ⟨State.attempt_openSha_of_closed _ hshav, State.attempt_openSha_of_closed _ hshav,
      State.attempt_openSha_of_closed _ hshav, State.attempt_openSha_of_closed _ hshav,
      State.attempt_openSha_of_closed _ hshav, State.attempt_openSha_of_closed _ hshav⟩
  case noDg =>
    refine (State.attempt_openSha_of_open _ hshav).trans ?_
    rw [State.digest_eq_error.2 (.inl ⟨rfl, hdgv⟩)]
    rfl
  case noKs => exact ⟨State.attempt_cipher_of_cleared _ hrc4v, State.attempt_cipher_of_cleared _ hrc4v⟩

end Sys2Proof.Machine
end

section
/-! PROOFS, 20_memory.md R63, R65, and 10_state.md R39, R40. One byte of a buffer, what a read may leave behind, and the bytes of a word view. -/

namespace Sys2Proof.Machine

/-! ### One byte of a buffer (20_memory.md R63) -/

section BufferByte
variable {s : State} {b : Buf} {i : Nat}

theorem bufAt_base_add {c : Config} (h : i < b.size c) : bufAt c (b.base + i) = some b :=
  bufAt_eq_some.2 ⟨Nat.le_add_right .., Nat.add_lt_add_left h _⟩

theorem State.hostWrite8_byte (h : i < b.size s.cfg) (v : Byte) :
    s.hostWrite8 (b.base + i) v = (s.setBuffer b ((s.buffer b).write i v)).answer .done := by
  simp [State.hostWrite8, bufAt_base_add h]

theorem State.hostRead8_byte_of_some {v : Byte} (h : i < b.size s.cfg) (hv : (s.buffer b).read i = some v) :
    s.hostRead8 (b.base + i) = s.answer (.data8 v) := by
  simp [State.hostRead8, bufAt_base_add h, hv]

theorem State.hostRead8_byte_of_none (h : i < b.size s.cfg) (hv : (s.buffer b).read i = none) :
    s.hostRead8 (b.base + i) = (s.answer (.data8 (Config.freeByte s.freeCount (b.base + i)))).takeFree := by
  simp [State.hostRead8, bufAt_base_add h, hv]

end BufferByte

/-- Settles O58: the address is the buffer's, whose byte is then written, shown, or open. -/
theorem bufferAccessIsByteWise : Obligations.BufferAccessIsByteWise := by
  intro s b i es hi
  refine ⟨fun v hs => ?write, fun v hs hv => ?value, fun hs hv => ?openByte⟩
  case write =>
    refine ⟨(s.buffer b).write i v, ?_, Memory.writeRange_writtenTo (s.buffer b) i [v]⟩
    refine (step_event hs).trans (congrArg _ ((State.hostWrite8_byte (s := { s with host := es }) hi v).trans ?_))
    cases b <;> rfl
  case value =>
    rw [← s.withHost_buffer es] at hv
    exact (step_event hs).trans (congrArg _ (State.hostRead8_byte_of_some (s := { s with host := es }) hi hv))
  case openByte =>
    rw [← s.withHost_buffer es] at hv
    exact ⟨_, _, (step_event hs).trans (congrArg _ (State.hostRead8_byte_of_none (s := { s with host := es }) hi hv)),
      rfl, rfl⟩

/-! ### What a read leaves behind (20_memory.md R65) -/

/-- The read leaves an answer and the count of free values, and, when it took none, gives the same answer whatever was
answered before it. -/
def State.ReadOnly (s : State) (read : State → State) : Prop :=
  ∃ r n, read s = { s with reply := r, freeCount := n } ∧
    (n = s.freeCount → ∀ r', (read { s with reply := r' }).reply = r)

theorem State.refuseAccess_readOnly (s : State) : s.ReadOnly State.refuseAccess := ⟨_, _, rfl, fun _ _ => rfl⟩

theorem State.hostRead8_readOnly (s : State) (a : Nat) : s.ReadOnly fun s => s.hostRead8 a := by
  rcases s.hostRead8_cases a with ⟨hbuf, h⟩ | ⟨b, v, hbuf, hv, h⟩ | ⟨b, -, -, h⟩
  · exact ⟨_, _, h, fun _ r' => by simp [State.hostRead8, hbuf, State.refuseAccess]⟩
  · refine ⟨_, _, h, fun _ r' => ?_⟩
    have h' : State.hostRead8 (s.answer r') a = (s.answer r').answer (.data8 v) := by simp [State.hostRead8, hbuf, hv]
    exact congrArg State.reply h'
  · exact ⟨_, _, h, fun hn => absurd hn (Nat.succ_ne_self _)⟩

theorem State.hostRead32_readOnly (s : State) (a : Nat) : s.ReadOnly fun s => s.hostRead32 a := by
  rcases s.hostRead32_cases a with ⟨hreg, h⟩ | ⟨r, v, rfl, hv, h⟩ | ⟨r, -, -, h⟩
  · exact ⟨_, _, h, fun _ r' => by simp [State.hostRead32, hreg, State.refuseAccess]⟩
  · refine ⟨_, _, h, fun _ r' => ?_⟩
    rw [← s.answer_readReg r'] at hv
    exact congrArg State.reply (State.hostRead32_of_some hv)
  · exact ⟨_, _, h, fun hn => absurd hn (Nat.succ_ne_self _)⟩

/-- A step that reads changes nothing of the block and repeats. -/
theorem step_readOnly {s t : State} {e : HostEvent} {es : List HostEvent} {read : State → State}
    (hperform : ∀ u : State, u.perform e = .next (read u)) (hread : State.ReadOnly { s with host := es } read)
    (hs : s.host = e :: es) (ht : step s = .next t) :
    s.SameBlock t ∧ t.host = es ∧
      (t.freeCount = s.freeCount → ∃ t', step { t with host := e :: es } = .next t' ∧ t'.reply = t.reply) := by
  obtain ⟨r, n, heq, hrepeat⟩ := hread
  rw [step_event hs, hperform, heq] at ht
  obtain rfl := Host.Outcome.next.inj ht
  refine ⟨rfl, rfl, fun hn => ⟨_, (step_event rfl).trans (hperform _), ?_⟩⟩
  obtain rfl : n = s.freeCount := hn
  exact hrepeat rfl r

/-- Settles O60: each kind of read leaves only its answer and the count of free values. -/
theorem hostReadsHaveNoSideEffect : Obligations.HostReadsHaveNoSideEffect := by
  rintro s t e es hs ⟨a, rfl | rfl | rfl⟩ ht
  · exact step_readOnly (fun _ => rfl) (State.hostRead8_readOnly _ a) hs ht
  · exact step_readOnly (fun _ => rfl) (State.refuseAccess_readOnly _) hs ht
  · exact step_readOnly (fun _ => rfl) (State.hostRead32_readOnly _ a) hs ht

/-! ### The word views (10_state.md R39, R40) -/

/-- The big-endian bytes of a word made of four bytes are those bytes. -/
theorem be32_ofBe32 (b0 b1 b2 b3 : Byte) : be32 (ofBe32 b0 b1 b2 b3) = [b0, b1, b2, b3] := by
  have h0 : (ofBe32 b0 b1 b2 b3).extractLsb' 24 8 = b0 :=
    calc (b0 ++ b1 ++ b2 ++ b3).extractLsb' 24 8 = (b0 ++ b1 ++ b2).extractLsb' 16 8 :=
          BitVec.extractLsb'_append_eq_of_le (by decide)
      _ = (b0 ++ b1).extractLsb' 8 8 := BitVec.extractLsb'_append_eq_of_le (by decide)
      _ = b0 := BitVec.extractLsb'_append_eq_left
  have h1 : (ofBe32 b0 b1 b2 b3).extractLsb' 16 8 = b1 :=
    calc (b0 ++ b1 ++ b2 ++ b3).extractLsb' 16 8 = (b0 ++ b1 ++ b2).extractLsb' 8 8 :=
          BitVec.extractLsb'_append_eq_of_le (by decide)
      _ = (b0 ++ b1).extractLsb' 0 8 := BitVec.extractLsb'_append_eq_of_le (by decide)
      _ = b1 := BitVec.extractLsb'_append_eq_right
  have h2 : (ofBe32 b0 b1 b2 b3).extractLsb' 8 8 = b2 :=
    calc (b0 ++ b1 ++ b2 ++ b3).extractLsb' 8 8 = (b0 ++ b1 ++ b2).extractLsb' 0 8 :=
          BitVec.extractLsb'_append_eq_of_le (by decide)
      _ = b2 := BitVec.extractLsb'_append_eq_right
  have h3 : (ofBe32 b0 b1 b2 b3).extractLsb' 0 8 = b3 := BitVec.extractLsb'_append_eq_right
  rw [be32, h0, h1, h2, h3]

theorem be32_digestWord (d : Vector Byte 32) (k : Fin 8) :
    be32 (digestWord d k) = (d.toList.drop (4 * k.val)).take 4 := by
  rw [digestWord, be32_ofBe32]
  apply List.ext_getElem
  · simp
    omega
  · intro i hi _
    have hi : i < 4 := hi
    interval_cases i <;> simp
/-- Settles O40: with its flag 1 a view shows word `k` of the digest or of the key. -/
theorem wordViewsAreBigEndian : Obligations.WordViewsAreBigEndian := by
  intro s d k
  refine ⟨fun hv hd => ⟨digestWord d k, ?_, be32_digestWord d k⟩, fun hv hd => ⟨digestWord d k, ?_, be32_digestWord d k⟩⟩ <;>
    simp [State.readReg, wordView, hv, hd]

end Sys2Proof.Machine
end

section
/-! PROOFS, 40_crc16.md section 1, consequences (b), (d), (e). A shift of the CRC register is linear and loses nothing: from both
follow the byte-table form, the residue 0, and that no changed byte goes unseen. -/

namespace Sys2Proof.Machine

/-! ### The shift is linear -/

theorem crc16Shift_xor (c d : Half) : crc16Shift (c ^^^ d) = crc16Shift c ^^^ crc16Shift d := by
  simp only [crc16Shift, BitVec.msb_xor, BitVec.shiftLeft_xor_distrib]
  cases c.msb <;> cases d.msb <;> simp [BitVec.xor_assoc, BitVec.xor_comm, ← BitVec.xor_assoc (d <<< 1)]

theorem crc16Shifts_xor (k : Nat) (c d : Half) : crc16Shifts k (c ^^^ d) = crc16Shifts k c ^^^ crc16Shifts k d := by
  induction k generalizing c d with
  | zero => rfl
  | succ k ih => rw [crc16Shifts, crc16Shifts, crc16Shifts, crc16Shift_xor, ih]

theorem crc16Shift_of_lt {c : Half} (hc : c.toNat < 2 ^ 15) : crc16Shift c = c <<< 1 := by
  have hmsb : c.msb = false := by rw [BitVec.msb_eq_decide]; simpa using hc
  simp [crc16Shift, hmsb]

/-- While the bits that reach the top are 0, shifting only shifts. -/
theorem crc16Shifts_of_lt {k : Nat} {c : Half} (hc : c.toNat * 2 ^ k < 2 ^ 16) : crc16Shifts k c = c <<< k := by
  induction k generalizing c with
  | zero => exact (BitVec.shiftLeft_zero c).symm
  | succ k ih =>
    have hlow : c.toNat < 2 ^ 15 := by
      have := Nat.le_mul_of_pos_right (c.toNat * 2) (Nat.two_pow_pos k)
      rw [Nat.pow_succ'] at hc
      nlinarith
    have hnext : (c <<< 1).toNat = c.toNat * 2 := by
      rw [BitVec.toNat_shiftLeft, Nat.shiftLeft_eq]
      omega
    rw [crc16Shifts, crc16Shift_of_lt hlow, ih (by rwa [hnext, Nat.mul_assoc, ← Nat.pow_succ']), ← BitVec.shiftLeft_add,
      Nat.add_comm]

/-! ### The byte-table form and the residue -/

/-- A register is its high byte above its low byte. -/
theorem half_eq_bytes (c : Half) : c = ((c >>> 8).setWidth 8).setWidth 16 <<< 8 ^^^ (c.setWidth 8).setWidth 16 := by
  apply BitVec.eq_of_getLsbD_eq
  intro i hi
  by_cases h : i < 8
  · simp [h, hi]
  · simp [h, hi, show i - 8 < 8 by omega, show 8 + (i - 8) = i by omega]

/-- Settles O25: the low byte of the register only moves up, and the rest is linear. -/
theorem crc16TableFormAgrees : Obligations.Crc16TableFormAgrees := by
  intro c b
  have hlow : crc16Shifts 8 ((c.setWidth 8).setWidth 16) = c <<< 8 := by
    rw [crc16Shifts_of_lt]
    · apply BitVec.eq_of_getLsbD_eq
      intro i hi
      simp only [BitVec.getLsbD_shiftLeft, BitVec.getLsbD_setWidth]
      by_cases h : i < 8
      · simp [h]
      · simp [h, show i - 8 < 8 by omega, show i - 8 < 16 by omega]
    · have := toNat_setWidth_lt (c.setWidth 8) 16
      omega
  have hbytes : c ^^^ b.setWidth 16 <<< 8 =
      (c.setWidth 8).setWidth 16 ^^^ ((c >>> 8).setWidth 8 ^^^ b).setWidth 16 <<< 8 := by
    conv_lhs => rw [half_eq_bytes c]
    rw [BitVec.setWidth_xor, BitVec.shiftLeft_xor_distrib, ← BitVec.xor_assoc,
      BitVec.xor_comm (((c >>> 8).setWidth 8).setWidth 16 <<< 8)]
  rw [crc16Byte, hbytes, crc16Shifts_xor, hlow, crc16Byte, show (0 : Half) = 0#16 from rfl, BitVec.zero_xor]

/-- The register's own high byte shifts it out. -/
theorem crc16Byte_high (c : Half) : crc16Byte c ((c >>> 8).setWidth 8) = c <<< 8 := by
  rw [crc16TableFormAgrees, BitVec.xor_self]
  exact BitVec.xor_zero

/-- Its two bytes leave 0 in it. -/
theorem crc16From_be16 (c : Half) : crc16From c (be16 c) = 0 := by
  have hlow : c.setWidth 8 = (c <<< 8 >>> 8).setWidth 8 := by
    apply BitVec.eq_of_getLsbD_eq
    intro i hi
    simp only [BitVec.getLsbD_setWidth, BitVec.getLsbD_ushiftRight, BitVec.getLsbD_shiftLeft]
    simp [show 8 + i < 16 by omega]
  have hshift : c <<< 8 <<< 8 = 0 := by
    rw [← BitVec.shiftLeft_add]
    exact BitVec.shiftLeft_eq_zero (by decide)
  rw [be16_eq, crc16From, crc16Byte_high, hlow, crc16From, crc16Byte_high, crc16From, hshift]

/-- Settles O26: the CRC goes on over its own two bytes. -/
theorem crc16ResidueIsZero : Obligations.Crc16ResidueIsZero := by
  intro m
  rw [crc16Of, crc16From_append]
  exact crc16From_be16 _

/-! ### The shift loses nothing -/

/-- The bit shifted out comes back at the bottom, where the polynomial has a 1. -/
theorem eq_zero_of_crc16Shift {c : Half} (h : crc16Shift c = 0) : c = 0 := by
  have hdouble : (c <<< 1).toNat = c.toNat * 2 % 2 ^ 16 := by rw [BitVec.toNat_shiftLeft, Nat.shiftLeft_eq, pow_one]
  unfold crc16Shift at h
  split at h
  · have := congrArg BitVec.toNat (BitVec.xor_eq_zero_iff.1 h)
    rw [hdouble, show (0x1021 : Half).toNat = 4129 from rfl] at this
    omega
  · next hmsb =>
    have := congrArg BitVec.toNat h
    rw [hdouble, show (0 : Half).toNat = 0 from rfl] at this
    rw [BitVec.msb_eq_decide, decide_eq_true_eq] at hmsb
    apply BitVec.eq_of_toNat_eq
    rw [show (0 : Half).toNat = 0 from rfl]
    omega

theorem crc16Shift_injective : Function.Injective crc16Shift := fun c d h =>
  BitVec.xor_eq_zero_iff.1 (eq_zero_of_crc16Shift (by rw [crc16Shift_xor, h, BitVec.xor_self]; rfl))

theorem crc16Shifts_injective (k : Nat) : Function.Injective (crc16Shifts k) := by
  induction k with
  | zero => exact fun _ _ h => h
  | succ k ih => exact fun _ _ h => crc16Shift_injective (ih h)

theorem crc16Byte_injective_left (b : Byte) : Function.Injective fun c => crc16Byte c b := fun _ _ h =>
  (BitVec.xor_left_inj _).1 (crc16Shifts_injective 8 h)

theorem crc16Byte_injective_right (c : Half) : Function.Injective (crc16Byte c) := fun b b' h => by
  have hshift := (BitVec.xor_right_inj _).1 (crc16Shifts_injective 8 h)
  apply BitVec.eq_of_getLsbD_eq
  intro i hi
  have hbit := congrArg (BitVec.getLsbD · (i + 8)) hshift
  simpa [show i + 8 < 16 by omega, show i < 16 by omega] using hbit

theorem crc16From_injective (bs : List Byte) : Function.Injective fun c => crc16From c bs := by
  induction bs with
  | nil => exact fun _ _ h => h
  | cons b bs ih => exact fun _ _ h => crc16Byte_injective_left b (ih h)

/-- Messages that differ in one byte have different CRCs, whatever the byte is changed to. -/
theorem crc16Of_set_ne {m : List Byte} {k : Nat} {b b' : Byte} (hk : m[k]? = some b) (hb : b' ≠ b) :
    crc16Of (m.set k b') ≠ crc16Of m := by
  obtain ⟨hlt, hget⟩ := List.getElem?_eq_some_iff.1 hk
  have hm : m = m.take k ++ b :: m.drop (k + 1) := by rw [← hget, List.cons_getElem_drop_succ, List.take_append_drop]
  have hset : m.set k b' = m.take k ++ b' :: m.drop (k + 1) := List.set_eq_take_append_cons_drop ▸ if_pos hlt
  intro h
  rw [hset] at h
  conv_rhs at h => rw [hm]
  rw [crc16Of, crc16Of, crc16From_append, crc16From_append] at h
  exact hb (crc16Byte_injective_right _ (crc16From_injective _ h))

/-- Settles O27: a flipped bit is a changed byte, so the CRC is no longer 0. -/
theorem crc16DetectsEverySingleBitFlip : Obligations.Crc16DetectsEverySingleBitFlip := by
  intro m k j b hm hk hj
  rw [← hm]
  refine crc16Of_set_ne hk fun h => ?_
  have hbit := congrArg (BitVec.getLsbD · j) h
  simp [hj] at hbit

end Sys2Proof.Machine
end

section
/-! PROOFS, 42_sha256_kdf.md R166, R173 to R178. The operations on an open message: the checks of their operand, the bytes they
absorb, and the digest that closes it. -/

namespace Sys2Proof.Machine

theorem exec_shaUpdb (imm : Byte) (s : State) :
    exec (.shaUpdb imm) s = s.attempt (s.openSha >>= fun _ => s.absorbSha [imm] >>= fun t => .ok t.succeed) := rfl

theorem exec_shaUpdr (off len : Nat) (s : State) :
    exec (.shaUpdr off len) s = s.attempt (s.openSha >>= fun _ => s.fbRange off len >>= fun bs =>
      s.absorbSha bs >>= fun t => .ok t.succeed) := rfl

theorem exec_shaUpdk1 (s : State) :
    exec .shaUpdk1 s = s.attempt (s.openSha >>= fun _ => s.readKey1 >>= fun k =>
      s.absorbSha k >>= fun t => .ok t.succeed) := rfl

theorem exec_shaUpdk2 (s : State) :
    exec .shaUpdk2 s = s.attempt (s.openSha >>= fun _ => s.readKey2 >>= fun k =>
      s.absorbSha k >>= fun t => .ok t.succeed) := rfl

theorem exec_shaUpddg (s : State) :
    exec .shaUpddg s = s.attempt (s.openSha >>= fun _ => s.digest >>= fun d =>
      s.absorbSha d.toList >>= fun t => .ok t.succeed) := rfl

theorem exec_shaFin (s : State) :
    exec .shaFin s = s.attempt (s.openSha >>= fun _ => s.finishSha >>= fun t => .ok t.succeed) := rfl

section OpenMessage
variable {s : State}

/-- An open message of a state that a run reaches can go on (10_state.md R26). -/
theorem State.Inv.sha_ready (h : s.Inv) (hshav : s.shav = true) : s.sha.Ready :=
  have ⟨hready, _⟩ := h.flags
  hready hshav

/-- A check of an operation that has the message open, passed. -/
theorem State.attempt_open_read_of_ok {α : Type} {x : Check α} {a : α} (k : α → Check State) (hshav : s.shav = true)
    (hx : x = .ok a) : s.attempt (s.openSha >>= fun _ => x >>= k) = s.attempt (k a) := by
  rw [State.attempt_openSha_of_open _ hshav, hx, Check.ok_bind]

/-- A check of an operation that has the message open, failed. -/
theorem State.attempt_open_read_of_error {α : Type} {x : Check α} {c : FaultCode} (k : α → Check State)
    (hshav : s.shav = true) (hx : x = .error c) : s.attempt (s.openSha >>= fun _ => x >>= k) = .next (s.raise c) := by
  rw [State.attempt_openSha_of_open _ hshav, hx]
  rfl

/-- The bytes go into the engine, and nothing else changes. -/
theorem State.attempt_absorbSha {bs : List Byte} {e : ShaEngine} (h : s.sha.absorbAll bs = .ok e) :
    s.attempt (s.absorbSha bs >>= fun t => .ok t.succeed) = .next { s with sha := e, err := .ok } := by
  rw [State.absorbSha_eq_ok.2 ⟨e, h, rfl⟩]
  rfl

theorem exec_shaUpdb_of_open (hshav : s.shav = true) (imm : Byte) :
    exec (.shaUpdb imm) s = s.attempt (s.absorbSha [imm] >>= fun t => .ok t.succeed) := by
  rw [exec_shaUpdb, State.attempt_openSha_of_open _ hshav]

theorem exec_shaFin_of_open (hshav : s.shav = true) :
    exec .shaFin s = s.attempt (s.finishSha >>= fun t => .ok t.succeed) := by
  rw [exec_shaFin, State.attempt_openSha_of_open _ hshav]

end OpenMessage

/-! ### The obligations -/

/-- Settles O33: each operation reads its bytes, which a ready engine absorbs. -/
theorem shaUpdatesAbsorbTheirBytes : Obligations.ShaUpdatesAbsorbTheirBytes := by
  intro s hinv hshav
  have habsorb (bs : List Byte) : ∃ e, s.sha.absorbAll bs = .ok e := by
    obtain ⟨e, he, -⟩ := ShaEngine.absorbAll_ready (hinv.sha_ready hshav) bs
    exact ⟨e, he⟩
  refine ⟨fun imm => ?updb, fun off len bs hbs => ?updr, fun k hmax hlen hk => ?updk1, fun k hmax hlen hk => ?updk2,
    fun d hdgv hdg => ?upddg⟩
  case updb =>
    obtain ⟨e, he⟩ := habsorb [imm]
    exact ⟨e, he, (exec_shaUpdb_of_open hshav imm).trans (State.attempt_absorbSha he)⟩
  case updr =>
    obtain ⟨e, he⟩ := habsorb bs
    exact ⟨e, he, (State.attempt_open_read_of_ok _ hshav (State.fbRange_eq_ok.2 hbs)).trans (State.attempt_absorbSha he)⟩
  case updk1 =>
    obtain ⟨e, he⟩ := habsorb k
    exact ⟨e, he, (State.attempt_open_read_of_ok _ hshav (State.readKey1_eq_ok.2 ⟨hmax, hlen, hk⟩)).trans
      (State.attempt_absorbSha he)⟩
  case updk2 =>
    obtain ⟨e, he⟩ := habsorb k
    exact ⟨e, he, (State.attempt_open_read_of_ok _ hshav (State.readKey2_eq_ok.2 ⟨hmax, hlen, hk⟩)).trans
      (State.attempt_absorbSha he)⟩
  case upddg =>
    obtain ⟨e, he⟩ := habsorb d.toList
    exact ⟨e, he, (State.attempt_open_read_of_ok _ hshav (State.digest_eq_ok.2 ⟨hdgv, hdg⟩)).trans
      (State.attempt_absorbSha he)⟩

/-- Settles O34: the faults are those of reading the operand. -/
theorem shaUpdatesCheckTheirOperands : Obligations.ShaUpdatesCheckTheirOperands := by
  intro s hshav
  refine ⟨fun off len hbound => ?_, fun off len hflen hlen hlacks => ?_, fun hmax => ?_, fun hmax hlacks => ?_,
    fun hmax => ?_, fun hmax hlacks => ?_⟩
  · exact State.attempt_open_read_of_error _ hshav (State.fbRange_eq_error.2 (.inl ⟨rfl, hbound⟩))
  · exact State.attempt_open_read_of_error _ hshav (State.fbRange_eq_error.2 (.inr ⟨rfl, hflen, hlen, hlacks⟩))
  · exact State.attempt_open_read_of_error _ hshav (State.readKey1_eq_error.2 (.inl ⟨rfl, hmax⟩))
  · exact State.attempt_open_read_of_error _ hshav (State.readKey1_eq_error.2 (.inr ⟨rfl, hmax, hlacks⟩))
  · exact State.attempt_open_read_of_error _ hshav (State.readKey2_eq_error.2 (.inl ⟨rfl, hmax⟩))
  · exact State.attempt_open_read_of_error _ hshav (State.readKey2_eq_error.2 (.inr ⟨rfl, hmax, hlacks⟩))

/-- Settles O35: a ready engine takes the padding, and only a message that is too long takes a free digest. -/
theorem shaFinClosesTheMessage : Obligations.ShaFinClosesTheMessage := by
  intro s hinv hshav
  obtain ⟨t, ht⟩ := State.finishSha_ready (hinv.sha_ready hshav)
  rw [exec_shaFin_of_open hshav, ht, Check.ok_bind, State.attempt_ok]
  obtain ⟨e, c, -, -, ⟨-, rfl⟩ | ⟨-, rfl⟩⟩ := State.finishSha_cases ht
  · exact ⟨e, _, s.freeCount, rfl⟩
  · exact ⟨e, _, s.freeCount + 1, rfl⟩

/-- SHA.FIN after the bytes of a message below 2^61 bytes, with the engine as `finish()` leaves it. -/
theorem exec_shaFin_of_hasAbsorbed {s : State} {msg : List Byte} (hshav : s.shav = true) (h : s.sha.HasAbsorbed msg)
    (hlen : msg.length < 2 ^ 61) :
    ∃ e, e.HasFinished msg ∧ exec .shaFin s = .next { s.hashed e (sha256 msg) with err := .ok } := by
  obtain ⟨e, hpad, hfin⟩ := State.finishSha_of_hasAbsorbed h hlen
  refine ⟨e, ⟨_, h, hpad⟩, ?_⟩
  rw [exec_shaFin_of_open hshav, hfin]
  rfl

/-- Settles O36: the engine that absorbed the message finishes with its `sha256`. -/
theorem streamingEngineComputesSha256 : Obligations.StreamingEngineComputesSha256 := by
  intro s msg hshav habsorbed hlen
  obtain ⟨e, -, hfin⟩ := exec_shaFin_of_hasAbsorbed hshav habsorbed hlen
  exact ⟨e, hfin⟩

end Sys2Proof.Machine
end

section
/-! PROOFS, 30_encoding.md R107, 42_sha256_kdf.md R170, R179. The steps of the key derivation, command by command, hash the messages that
KDF.RUN hashes. -/

namespace Sys2Proof.Machine

/-- Running two sequences one after the other. -/
theorem execAll_append {is js : List Instr} {s t : State} (h : execAll is s = .next t) :
    execAll (is ++ js) s = execAll js t := by
  induction is generalizing s with
  | nil =>
    obtain rfl := Host.Outcome.next.inj h
    rfl
  | cons i is ih =>
    obtain ⟨u, hu⟩ := exec_eq_next i s
    rw [execAll_cons hu] at h
    rw [List.cons_append, execAll_cons hu, ih h]

/-- `finish()` after one message leaves one engine. -/
theorem ShaEngine.HasFinished.unique {e e' : ShaEngine} {msg : List Byte} (h : e.HasFinished msg)
    (h' : e'.HasFinished msg) : e = e' := by
  obtain ⟨e0, habsorb, hpad⟩ := h
  obtain ⟨e0', habsorb', hpad'⟩ := h'
  obtain rfl := Except.ok.inj (habsorb.symm.trans habsorb')
  exact Except.ok.inj (hpad.symm.trans hpad')

/-- The message `m` has been opened and absorbed since `s`, and nothing else changed. -/
def State.Hashing (s t : State) (m : List Byte) : Prop :=
  ∃ e, e.HasAbsorbed m ∧ t = { s with sha := e, shav := true, err := .ok }

section HashCommands
variable {s t : State} {m k1 k2 : List Byte}

theorem State.Hashing.init (s : State) : s.Hashing { s.initSha with err := .ok } [] := ⟨_, rfl, rfl⟩

/-- Bytes absorbed behind the message. -/
theorem State.Hashing.absorb (h : s.Hashing t m) (bs : List Byte) :
    ∃ u, t.attempt (t.absorbSha bs >>= fun t => .ok t.succeed) = .next u ∧ s.Hashing u (m ++ bs) := by
  obtain ⟨e, he, rfl⟩ := h
  obtain ⟨e', he', -⟩ := ShaEngine.absorbAll_ready ShaEngine.init_ready.1 (m ++ bs)
  have hbs : e.absorbAll bs = .ok e' := by
    have happend := ShaEngine.absorbAll_append m bs ShaEngine.init
    rwa [he, he', Check.ok_bind, eq_comm] at happend
  exact ⟨_, State.attempt_absorbSha hbs, e', he', rfl⟩

theorem State.Hashing.updk1 (h : s.Hashing t m) (hkeys : s.HasKeys k1 k2) :
    ∃ u, exec .shaUpdk1 t = .next u ∧ s.Hashing u (m ++ k1) := by
  obtain ⟨u, hu, hnext⟩ := h.absorb k1
  obtain ⟨e, -, rfl⟩ := h
  obtain ⟨hmax, -, hlen, -, hholds, -⟩ := hkeys
  exact ⟨u, (State.attempt_open_read_of_ok _ rfl (State.readKey1_eq_ok.2 ⟨hmax, hlen, hholds⟩)).trans hu, hnext⟩

theorem State.Hashing.updk2 (h : s.Hashing t m) (hkeys : s.HasKeys k1 k2) :
    ∃ u, exec .shaUpdk2 t = .next u ∧ s.Hashing u (m ++ k2) := by
  obtain ⟨u, hu, hnext⟩ := h.absorb k2
  obtain ⟨e, -, rfl⟩ := h
  obtain ⟨-, hmax, -, hlen, -, hholds⟩ := hkeys
  exact ⟨u, (State.attempt_open_read_of_ok _ rfl (State.readKey2_eq_ok.2 ⟨hmax, hlen, hholds⟩)).trans hu, hnext⟩

theorem State.Hashing.upddg {d : Vector Byte 32} (h : s.Hashing t m) (hd : s.digest = .ok d) :
    ∃ u, exec .shaUpddg t = .next u ∧ s.Hashing u (m ++ d.toList) := by
  obtain ⟨u, hu, hnext⟩ := h.absorb d.toList
  obtain ⟨e, -, rfl⟩ := h
  exact ⟨u, (State.attempt_open_read_of_ok _ rfl hd).trans hu, hnext⟩

theorem State.Hashing.fin (h : s.Hashing t m) (hlen : m.length < 2 ^ 61) :
    ∃ e, e.HasFinished m ∧ exec .shaFin t = .next { s.hashed e (sha256 m) with err := .ok } := by
  obtain ⟨e, he, rfl⟩ := h
  exact exec_shaFin_of_hasAbsorbed rfl he hlen

/-- KDF.STEP0 is the first hash of the derivation (42_sha256_kdf.md R170). -/
theorem execAll_kdfStep0 (hkeys : s.HasKeys k1 k2) :
    ∃ e, e.HasFinished (lastKdfMessage k1 k2 0) ∧
      execAll Pseudo.kdfStep0.expand s = .next { s.hashed e (deriveKey k1 k2 0) with err := .ok } := by
  have hlen := State.HasKeys.kdfMessage_lt hkeys
  obtain ⟨u1, hu1, h1⟩ := (State.Hashing.init s).updk1 hkeys
  obtain ⟨u2, hu2, h2⟩ := h1.updk2 hkeys
  obtain ⟨e, he, hfin⟩ := h2.fin ((lastKdfMessage_length_le k1 k2 0).trans_lt hlen)
  refine ⟨e, he, ?_⟩
  rw [Pseudo.expand, execAll_cons (exec_shaInit s), execAll_cons hu1, execAll_cons hu2, execAll_cons hfin]
  rfl

/-- KDF.STEPN is one round more. -/
theorem execAll_kdfStepN (hkeys : s.HasKeys k1 k2) {e : ShaEngine} (n : Nat) :
    ∃ e', e'.HasFinished (lastKdfMessage k1 k2 (n + 1)) ∧
      execAll Pseudo.kdfStepN.expand { s.hashed e (deriveKey k1 k2 n) with err := .ok } =
        .next { s.hashed e' (deriveKey k1 k2 (n + 1)) with err := .ok } := by
  have hlen := State.HasKeys.kdfMessage_lt hkeys
  have hkeys' : State.HasKeys { s.hashed e (deriveKey k1 k2 n) with err := .ok } k1 k2 := hkeys
  obtain ⟨u0, hu0, h0⟩ := (State.Hashing.init { s.hashed e (deriveKey k1 k2 n) with err := .ok }).upddg rfl
  obtain ⟨u1, hu1, h1⟩ := h0.updk1 hkeys'
  obtain ⟨u2, hu2, h2⟩ := h1.updk2 hkeys'
  obtain ⟨e', he', hfin⟩ := h2.fin ((lastKdfMessage_length_le k1 k2 (n + 1)).trans_lt hlen)
  refine ⟨e', he', ?_⟩
  rw [Pseudo.expand, execAll_cons (exec_shaInit _), execAll_cons hu0, execAll_cons hu1, execAll_cons hu2,
    execAll_cons hfin, execAll_nil, deriveKey_eq_sha256 k1 k2 (n + 1)]
  rfl

/-- `n` times KDF.STEPN goes from the key after `j` iterations to the key after `j + n`. -/
theorem execAll_kdfSteps (hkeys : s.HasKeys k1 k2) (n : Nat) {j : Nat} {e : ShaEngine}
    (he : e.HasFinished (lastKdfMessage k1 k2 j)) :
    ∃ e', e'.HasFinished (lastKdfMessage k1 k2 (j + n)) ∧
      execAll (List.replicate n Pseudo.kdfStepN.expand).flatten { s.hashed e (deriveKey k1 k2 j) with err := .ok } =
        .next { s.hashed e' (deriveKey k1 k2 (j + n)) with err := .ok } := by
  induction n generalizing j e with
  | zero => exact ⟨e, he, rfl⟩
  | succ n ih =>
    obtain ⟨e1, he1, hstep⟩ := execAll_kdfStepN hkeys (e := e) j
    obtain ⟨e', he', hsteps⟩ := ih he1
    rw [Nat.add_assoc, Nat.add_comm 1 n] at he' hsteps
    refine ⟨e', he', ?_⟩
    rw [List.replicate_succ, List.flatten_cons, execAll_append hstep, hsteps]

end HashCommands

/-- Settles O38: both sides leave the key that `derive_key` gives and the engine after its last message. -/
theorem kdfRunEqualsItsExpansion : Obligations.KdfRunEqualsItsExpansion := by
  intro s k1 k2 hkeys
  obtain ⟨e, he, hrun⟩ := (kdfRunDerivesTheKey.2 s).1 k1 k2 hkeys
  obtain ⟨e0, he0, hstep0⟩ := execAll_kdfStep0 hkeys
  obtain ⟨e1, he1, hsteps⟩ := execAll_kdfSteps hkeys s.iter.toNat he0
  rw [Nat.zero_add] at he1 hsteps
  obtain rfl := he.unique he1
  rw [hrun, List.append_assoc, execAll_append hstep0, execAll_append hsteps,
    execAll_cons ((kdfLatchCopiesTheDigest.2 _).1 _ rfl rfl), execAll_nil]
  rfl

end Sys2Proof.Machine
end

section
/-! PROOFS, 10_state.md R24, R25, R42, R44, 70_reset_and_hazards.md R328. What each operation does when it raises no fault, said once, and
from it which state elements it leaves alone. -/

namespace Sys2Proof.Machine

/-! ### What a computation answers -/

/-- Whatever the computation answers has the property. -/
def Ensures (P : State → Prop) (r : Check State) : Prop := ∀ t, r = .ok t → P t

section EnsuresRules
variable {P : State → Prop} {s t : State} {r : Check State} {α : Type}

theorem Ensures.answer (h : P t) : Ensures P (.ok t) := fun _ ht => Except.ok.inj ht ▸ h

theorem Ensures.read {x : Check α} {k : α → Check State} (h : ∀ a, x = .ok a → Ensures P (k a)) : Ensures P (x >>= k) :=
  fun t ht =>
    let ⟨a, ha, hk⟩ := Check.bind_eq_ok.1 ht
    h a ha t hk

/-- An operation raises a fault on the state before it, or has done what its computation ensures. -/
theorem Ensures.of_attempt (h : Ensures P r) (ht : s.attempt r = .next t) : (∃ c, t = s.raise c) ∨ P t := by
  rcases State.attempt_eq_next.1 ht with hok | ⟨c, -, hraise⟩
  · exact .inr (h t hok)
  · exact .inl ⟨c, hraise⟩

end EnsuresRules

/-! ### What each operation does -/

/-- What the operation does to the state when it raises no fault. -/
def Instr.Effect (i : Instr) (s t : State) : Prop :=
  match i with
  | .nop => t = s
  | .srst => t = s.resetBlock
  | .crc16Init | .crc16Updb _ | .crc16Updr _ _ => ∃ c, t = { s with crc16 := c, err := .ok }
  | .sum8Init | .sum8Updb _ | .sum8Updr _ _ => ∃ x, t = { s with sum8 := x, err := .ok }
  | .crc16Put _ | .sum8Put _ => ∃ off bs, off + bs.length ≤ s.cfg.fbSize ∧ t = { s with fb := s.fb.writeRange off bs, err := .ok }
  | .shaInit => t = { s.initSha with err := .ok }
  | .shaUpdb _ | .shaUpdr _ _ | .shaUpdk1 | .shaUpdk2 | .shaUpddg =>
    ∃ bs e, s.shav = true ∧ s.sha.absorbAll bs = .ok e ∧ t = { s with sha := e, err := .ok }
  | .shaFin => ∃ u, s.shav = true ∧ s.finishSha = .ok u ∧ t = u.succeed
  | .kdfRun => ∃ k1 k2 u, s.deriveKeyInto k1 k2 = .ok u ∧ t = u.succeed
  | .kdfLatch => ∃ d, s.dg = some d ∧ t = { s with dk := some d, dkv := true, err := .ok }
  | .rc4Ksa => ∃ key, t = { s with s := some (rc4Ksa key), ri := 0, rj := 0, rc4v := true, err := .ok }
  | .rc4Xorr off len => ∃ c bs, s.cipher = .ok c ∧ s.HasRange off len bs ∧
      t = { s.setCipher (c.advance len) with fb := s.fb.writeRange off (c.xorBytes bs).1, err := .ok }
  | .rc4Gen => ∃ c, s.cipher = .ok c ∧ t = { s.setCipher c.next.2 with ksb := c.next.1, err := .ok }
  | .frmValidate => ∃ f, t = s.validated f
  | .frmDecode => ∃ f keys, s.HasFrame f ∧ s.decoded f keys = .ok t
  | .frmRx => ∃ f keys, s.HasFrame f ∧ s.received f keys = .ok t
  | .frmEncode => ∃ dev extra keys, dev.length = 10 ∧ extra.length ≤ txxMax ∧ s.encoded (s.replyArgs dev extra) keys = .ok t

/-- The bytes put in FB, then the outcome ok. -/
theorem State.fbPut_ensures (s : State) (off : Nat) (bs : List Byte) :
    Ensures (fun t => ∃ off bs, off + bs.length ≤ s.cfg.fbSize ∧ t = { s with fb := s.fb.writeRange off bs, err := .ok })
      (s.fbPut off bs >>= fun t => .ok t.succeed) := .read fun t ht => by
  obtain ⟨hle, rfl⟩ := State.fbPut_eq_ok.1 ht
  exact .answer ⟨off, bs, hle, rfl⟩

/-- The bytes absorbed into the open message, then the outcome ok. -/
theorem State.absorbSha_ensures {s : State} {e : ShaEngine} (hopen : s.openSha = .ok e) (bs : List Byte) :
    Ensures (fun t => ∃ bs e, s.shav = true ∧ s.sha.absorbAll bs = .ok e ∧ t = { s with sha := e, err := .ok })
      (s.absorbSha bs >>= fun t => .ok t.succeed) := .read fun t ht => by
  obtain ⟨e', he', rfl⟩ := State.absorbSha_eq_ok.1 ht
  exact .answer ⟨bs, e', (State.openSha_eq_ok.1 hopen).1, he', rfl⟩

/-- An operation raises a fault on the state before it or has its effect (60_exceptions.md R294). -/
theorem exec_effect {i : Instr} {s t : State} (h : exec i s = .next t) : (∃ c, t = s.raise c) ∨ Instr.Effect i s t := by
  cases i with
  | nop | srst | shaInit => exact .inr (Host.Outcome.next.inj h).symm
  | crc16Init | crc16Updb | sum8Init | sum8Updb => exact .inr ⟨_, (Host.Outcome.next.inj h).symm⟩
  | crc16Updr | sum8Updr => exact Ensures.of_attempt (.read fun _ _ => .answer ⟨_, rfl⟩) h
  | crc16Put | sum8Put => exact Ensures.of_attempt (s.fbPut_ensures _ _) h
  | shaUpdb => exact Ensures.of_attempt (.read fun _ hopen => State.absorbSha_ensures hopen _) h
  | shaUpdr | shaUpdk1 | shaUpdk2 | shaUpddg =>
    exact Ensures.of_attempt (.read fun _ hopen => .read fun _ _ => State.absorbSha_ensures hopen _) h
  | shaFin =>
    refine Ensures.of_attempt (.read fun _ hopen => .read fun u hu => .answer ⟨u, ?_, hu, rfl⟩) h
    exact (State.openSha_eq_ok.1 hopen).1
  | kdfRun => exact Ensures.of_attempt (.read fun ks _ => .read fun u hu => .answer ⟨ks.1, ks.2, u, hu, rfl⟩) h
  | kdfLatch =>
    refine Ensures.of_attempt (.read fun u hu => ?_) h
    obtain ⟨d, -, hdg, rfl⟩ := State.latchKey_eq_ok.1 hu
    exact .answer ⟨d, hdg, rfl⟩
  | rc4Ksa =>
    refine Ensures.of_attempt (.read fun u hu => ?_) h
    obtain ⟨key, -, -, rfl⟩ := State.scheduleKey_eq_ok.1 hu
    exact .answer ⟨_, rfl⟩
  | rc4Xorr off len =>
    refine Ensures.of_attempt (.read fun c hc => .read fun bs hbs => .read fun p hp => ?_) h
    have hrange := State.fbRange_eq_ok.1 hbs
    obtain ⟨c', hc', hout, hstate⟩ := State.xorKeystream_eq_ok.1 (show s.xorKeystream bs = .ok (p.1, p.2) from hp)
    have ⟨_, _, hlen, _⟩ := hrange
    rw [hlen] at hstate
    exact .answer ⟨c', bs, hc', hrange, by rw [hout, hstate]; rfl⟩
  | rc4Gen => exact Ensures.of_attempt (.read fun c hc => .answer ⟨c, hc, rfl⟩) h
  | frmValidate => exact Ensures.of_attempt (.read fun f _ => .answer ⟨f, rfl⟩) h
  | frmDecode =>
    exact Ensures.of_attempt (.read fun f hf => .read fun keys _ _ ht => ⟨f, keys, State.fbFrame_eq_ok.1 hf, ht⟩) h
  | frmRx =>
    exact Ensures.of_attempt (.read fun f hf => .read fun keys _ _ ht => ⟨f, keys, State.fbFrame_eq_ok.1 hf, ht⟩)
      ((exec_frmRx s).symm.trans h)
  | frmEncode =>
    by_cases hx : s.txxlen.toNat ≤ txxMax
    · rw [exec_frmEncode_of_le hx] at h
      refine Ensures.of_attempt (.read fun keys _ => .read fun p hp _ ht => ?_) h
      obtain ⟨hdev, -, hextra, -⟩ := State.readTx_eq_ok.1 (show s.readTx _ = .ok (p.1, p.2) from hp)
      exact ⟨p.1, p.2, keys, hdev, hextra ▸ hx, ht⟩
    · refine Ensures.of_attempt (fun u hu => ?_) h
      rw [if_pos (Nat.lt_of_not_le hx)] at hu
      cases hu

/-! ### The changes of the frame operations -/

/-- What the decode step of a frame does: a reject, the report on a clear segment, or the segment decrypted in place and the
report on it (44_frame_rx.md R216). -/
theorem State.decoded_cases {f : List Byte} {keys : Option (List Byte × List Byte)} {s t : State}
    (h : s.decoded f keys = .ok t) :
    (∃ c ∈ [RejectCode.decodeShort, .segmentShort], t = { s with crc8ok := false, rxenc := false, err := .reject c }) ∨
      t = { s with rxenc := false }.reportSegment (segmentOf f) ∨
      ∃ k1 k2 seg u, minFrame ≤ f.length ∧ { s with rxenc := true }.deriveAndCrypt k1 k2 (segmentOf f) = .ok (seg, u) ∧
        t = { u with fb := u.fb.writeRange fixedLen seg }.reportSegment seg := by
  unfold State.decoded at h
  split at h
  · obtain rfl := Except.ok.inj h
    exact .inl ⟨_, .head _, rfl⟩
  split at h
  · obtain rfl := Except.ok.inj h
    exact .inl ⟨_, .tail _ (.head _), rfl⟩
  next hlen =>
  cases keys with
  | none =>
    obtain rfl := Except.ok.inj h
    exact .inr (.inl rfl)
  | some ks =>
    obtain ⟨p, hp, ht⟩ := Check.bind_eq_ok.1 h
    exact .inr (.inr ⟨ks.1, ks.2, p.1, p.2, Nat.le_of_not_lt hlen, hp, (Except.ok.inj ht).symm⟩)

/-- What FRM.RX does once the frame and the secrets are read: the reject of the validation, or the decode step, with a crc8
mismatch turned into a reject (44_frame_rx.md R220). -/
theorem State.received_cases {f : List Byte} {keys : Option (List Byte × List Byte)} {s t : State}
    (h : s.received f keys = .ok t) :
    ((s.validated f).valid = false ∧ t = { s.validated f with crc8ok := false, rxenc := false }) ∨
      ∃ u, (s.validated f).decoded f keys = .ok u ∧ (t = u.reject .crc8 ∨ t = u) := by
  unfold State.received at h
  split at h
  · obtain ⟨u, hu, ht⟩ := Check.bind_eq_ok.1 h
    refine .inr ⟨u, hu, ?_⟩
    split at ht
    · exact .inl (Except.ok.inj ht).symm
    · exact .inr (Except.ok.inj ht).symm
  · next hvalid => exact .inl ⟨by simpa using hvalid, (Except.ok.inj h).symm⟩

/-- The cipher step leaves the segment's length, and everything but the engines. -/
theorem State.deriveAndCrypt_onlyCipherChanged {k1 k2 seg out : List Byte} {s u : State}
    (h : s.deriveAndCrypt k1 k2 seg = .ok (out, u)) : s.OnlyCipherChanged u ∧ out.length = seg.length := by
  obtain ⟨key, t, u', -, -, hu', -, hframe⟩ := State.deriveAndCrypt_spec k1 k2 seg s
  obtain ⟨rfl, rfl⟩ := Prod.mk.inj (Except.ok.inj (hu'.symm.trans h))
  exact ⟨hframe, Rc4.xorBytes_length seg _⟩

/-- From `s` to `t` nothing changed but the frame, what is reported on it, and the engines. -/
abbrev State.OnlyFrameChanged (s t : State) : Prop :=
  t = { s with
    valid := t.valid, crc8ok := t.crc8ok, rxenc := t.rxenc, err := t.err, crc16 := t.crc16, sum8 := t.sum8, fb := t.fb,
    sha := t.sha, shav := t.shav, dg := t.dg, dgv := t.dgv, dk := t.dk, dkv := t.dkv, freeCount := t.freeCount,
    s := t.s, ri := t.ri, rj := t.rj, rc4v := t.rc4v }

theorem State.validated_onlyFrameChanged (s : State) (f : List Byte) : s.OnlyFrameChanged (s.validated f) := by
  rcases s.validated_cases f with ⟨-, h⟩ | ⟨-, -, h⟩ | ⟨-, -, -, h⟩ | ⟨-, -, -, h⟩ <;> rw [h]

theorem State.decoded_onlyFrameChanged {f : List Byte} {keys : Option (List Byte × List Byte)} {s t : State}
    (h : s.decoded f keys = .ok t) : s.OnlyFrameChanged t ∧ t.valid = s.valid := by
  rcases State.decoded_cases h with ⟨c, -, rfl⟩ | rfl | ⟨k1, k2, seg, u, -, hu, rfl⟩
  · exact ⟨rfl, rfl⟩
  · exact ⟨rfl, rfl⟩
  · obtain ⟨hframe, -⟩ := State.deriveAndCrypt_onlyCipherChanged hu
    unfold State.OnlyFrameChanged
    rw [hframe]
    exact ⟨rfl, rfl⟩

theorem State.received_onlyFrameChanged {f : List Byte} {keys : Option (List Byte × List Byte)} {s t : State}
    (h : s.received f keys = .ok t) : s.OnlyFrameChanged t := by
  have hvalidated := s.validated_onlyFrameChanged f
  rcases State.received_cases h with ⟨-, rfl⟩ | ⟨u, hu, rfl | rfl⟩
  · unfold State.OnlyFrameChanged
    rw [hvalidated]
  · obtain ⟨hdecoded, -⟩ := State.decoded_onlyFrameChanged hu
    unfold State.OnlyFrameChanged
    rw [hdecoded, hvalidated]
    rfl
  · obtain ⟨hdecoded, -⟩ := State.decoded_onlyFrameChanged hu
    unfold State.OnlyFrameChanged
    rw [hdecoded, hvalidated]

theorem State.encoded_onlyFrameChanged {r : ReplyArgs} {keys : Option (List Byte × List Byte)} {s t : State}
    (h : s.encoded r keys = .ok t) :
    State.OnlyFrameChanged { s with flen := t.flen } t ∧ t.valid = s.valid ∧ t.crc8ok = s.crc8ok ∧ t.rxenc = s.rxenc := by
  rcases s.encoded_cases r keys with ⟨-, heq⟩ | ⟨k1, k2, seg, u, -, hu, heq⟩
  · obtain rfl := Except.ok.inj (heq.symm.trans h)
    exact ⟨rfl, rfl, rfl, rfl⟩
  · obtain rfl := Except.ok.inj (heq.symm.trans h)
    obtain ⟨hframe, -⟩ := State.deriveAndCrypt_onlyCipherChanged hu
    unfold State.OnlyFrameChanged
    rw [hframe]
    exact ⟨rfl, rfl, rfl, rfl⟩

/-! ### What each operation leaves -/

/-- The operations that derive or latch a key (10_state.md R42). -/
def keyWriters : List Instr := [.kdfRun, .kdfLatch, .frmDecode, .frmRx, .frmEncode]

/-- What the operation leaves alone: the host's buffers and registers, and of the block's results those with other
writers. -/
structure Instr.Leaves (i : Instr) (s t : State) : Prop where
  others : t = { s with
    freeCount := t.freeCount, valid := t.valid, crc8ok := t.crc8ok, rxenc := t.rxenc, shav := t.shav, dgv := t.dgv,
    dkv := t.dkv, rc4v := t.rc4v, fault := t.fault, err := t.err, flen := t.flen, crc16 := t.crc16, sum8 := t.sum8,
    ksb := t.ksb, sha := t.sha, dg := t.dg, dk := t.dk, s := t.s, ri := t.ri, rj := t.rj, fb := t.fb }
  valid : i ≠ .frmValidate → i ≠ .frmRx → t.valid = s.valid
  report : i ≠ .frmDecode → i ≠ .frmRx → t.crc8ok = s.crc8ok ∧ t.rxenc = s.rxenc
  key : i ∉ keyWriters → t.dk = s.dk ∧ t.dkv = s.dkv
  flen : i ≠ .frmEncode → t.flen = s.flen

/-- Nothing changed but what every operation may write. -/
abbrev State.OnlyWorkChanged (s t : State) : Prop :=
  t = { s with
    freeCount := t.freeCount, shav := t.shav, dgv := t.dgv, rc4v := t.rc4v, fault := t.fault, err := t.err,
    crc16 := t.crc16, sum8 := t.sum8, ksb := t.ksb, sha := t.sha, dg := t.dg, s := t.s, ri := t.ri, rj := t.rj,
    fb := t.fb }

section LeavesRules
variable {i : Instr} {s t : State}

theorem Instr.Leaves.of_work (h : s.OnlyWorkChanged t) : Instr.Leaves i s t := by
  constructor
  case others => rw [h]
  all_goals intros; rw [h]
  case report => exact ⟨rfl, rfl⟩
  case key => exact ⟨rfl, rfl⟩

theorem Instr.Leaves.of_key (hi : i ∈ keyWriters) (h : State.OnlyWorkChanged { s with dk := t.dk, dkv := t.dkv } t) :
    Instr.Leaves i s t := by
  constructor
  case others => rw [h]
  case key => exact fun hi' => absurd hi hi'
  all_goals intros; rw [h]
  case report => exact ⟨rfl, rfl⟩

end LeavesRules

/-- Every operation but SRST leaves what `Instr.Leaves` lists. -/
theorem exec_leaves {i : Instr} {s t : State} (hi : i ≠ .srst) (h : exec i s = .next t) : Instr.Leaves i s t := by
  rcases exec_effect h with ⟨c, rfl⟩ | heffect
  · exact .of_work rfl
  cases i with
  | srst => exact absurd rfl hi
  | nop | shaInit =>
    obtain rfl := heffect
    exact .of_work rfl
  | crc16Init | crc16Updb | crc16Updr | sum8Init | sum8Updb | sum8Updr | rc4Ksa =>
    obtain ⟨_, rfl⟩ := heffect
    exact .of_work rfl
  | crc16Put | sum8Put =>
    obtain ⟨_, _, -, rfl⟩ := heffect
    exact .of_work rfl
  | shaUpdb | shaUpdr | shaUpdk1 | shaUpdk2 | shaUpddg =>
    obtain ⟨_, _, -, -, rfl⟩ := heffect
    exact .of_work rfl
  | shaFin =>
    obtain ⟨u, -, hu, rfl⟩ := heffect
    obtain ⟨_, _, -, -, ⟨-, rfl⟩ | ⟨-, rfl⟩⟩ := State.finishSha_cases hu <;> exact .of_work rfl
  | kdfRun =>
    obtain ⟨k1, k2, u, hu, rfl⟩ := heffect
    obtain ⟨u', hu', hframe, -⟩ := s.deriveKeyInto_spec k1 k2
    obtain rfl := Except.ok.inj (hu'.symm.trans hu)
    refine .of_key (.head _) ?_
    unfold State.OnlyWorkChanged
    rw [hframe]
    rfl
  | kdfLatch =>
    obtain ⟨d, -, rfl⟩ := heffect
    exact .of_key (.tail _ (.head _)) rfl
  | rc4Xorr =>
    obtain ⟨_, _, -, -, rfl⟩ := heffect
    exact .of_work rfl
  | rc4Gen =>
    obtain ⟨_, -, rfl⟩ := heffect
    exact .of_work rfl
  | frmValidate =>
    obtain ⟨f, rfl⟩ := heffect
    exact {
      others := (s.validated_onlyFrameChanged f).trans (by simp)
      valid := fun hne _ => absurd rfl hne
      report := fun _ _ => ⟨s.validated_crc8ok f, s.validated_rxenc f⟩
      key := fun _ => ⟨s.validated_dk f, s.validated_dkv f⟩
      flen := fun _ => s.validated_flen f }
  | frmDecode =>
    obtain ⟨f, keys, -, hdecoded⟩ := heffect
    obtain ⟨hframe, hvalid⟩ := State.decoded_onlyFrameChanged hdecoded
    exact {
      others := by rw [hframe]
      valid := fun _ _ => hvalid
      report := fun hne _ => absurd rfl hne
      key := fun hne => absurd (by decide) hne
      flen := fun _ => by rw [hframe] }
  | frmRx =>
    obtain ⟨f, keys, -, hreceived⟩ := heffect
    have hframe := State.received_onlyFrameChanged hreceived
    exact {
      others := by rw [hframe]
      valid := fun _ hne => absurd rfl hne
      report := fun _ hne => absurd rfl hne
      key := fun hne => absurd (by decide) hne
      flen := fun _ => by rw [hframe] }
  | frmEncode =>
    obtain ⟨dev, extra, keys, -, -, hencoded⟩ := heffect
    obtain ⟨hframe, hvalid, hcrc8ok, hrxenc⟩ := State.encoded_onlyFrameChanged hencoded
    exact {
      others := by rw [hframe]
      valid := fun _ _ => hvalid
      report := fun _ _ => ⟨hcrc8ok, hrxenc⟩
      key := fun hne => absurd (by decide) hne
      flen := fun hne => absurd rfl hne }

/-! ### The obligations -/

/-- Settles O18: the flags of the report are among what the other operations leave. -/
theorem resultFlagsHaveTheirWriters : Obligations.ResultFlagsHaveTheirWriters := by
  intro i s t h hi
  have hleaves := exec_leaves hi h
  exact ⟨hleaves.valid, hleaves.report⟩

/-- Settles O20: the host's buffers and registers are among what every operation leaves. -/
theorem operationsLeaveTheHostsBuffers : Obligations.OperationsLeaveTheHostsBuffers := by
  intro i s t h hi
  obtain ⟨hothers, -, -, -, hflen⟩ := exec_leaves hi h
  refine ⟨?_, ?_, ?_, ?_, ?_, ?_, ?_, ?_, ?_, ?_, ?_, ?_, ?_, ?_, hflen⟩ <;> rw [hothers]

/-! ### The steps that leave the derived key -/

/-- A host access, and a command that derives no key, leave DK and DKV. -/
theorem State.perform_key {s t : State} {e : HostEvent} (hreset : e ≠ .platformReset)
    (hcmd : ∀ w i, e = .write32 0x0000 w → decode w = .ok i → i ∉ Instr.srst :: keyWriters) (h : s.perform e = .next t) :
    t.dk = s.dk ∧ t.dkv = s.dkv := by
  cases e with
  | platformReset => exact absurd rfl hreset
  | read16 | write16 =>
    obtain rfl := Host.Outcome.next.inj h
    exact ⟨rfl, rfl⟩
  | read8 a =>
    obtain rfl := Host.Outcome.next.inj h
    rcases s.hostRead8_cases a with ⟨-, ha⟩ | ⟨_, _, -, -, ha⟩ | ⟨_, -, -, ha⟩ <;> rw [ha] <;> exact ⟨rfl, rfl⟩
  | read32 a =>
    obtain rfl := Host.Outcome.next.inj h
    rcases s.hostRead32_cases a with ⟨-, ha⟩ | ⟨_, _, -, -, ha⟩ | ⟨_, -, -, ha⟩ <;> rw [ha] <;> exact ⟨rfl, rfl⟩
  | write8 a v =>
    obtain rfl := Host.Outcome.next.inj h
    rcases s.hostWrite8_cases a v with ⟨-, ha⟩ | ⟨b, -, ha⟩ <;> rw [ha]
    · exact ⟨rfl, rfl⟩
    · exact ⟨by simp, by simp⟩
  | write32 a v =>
    rcases s.hostWrite32_cases a v with ⟨-, ha⟩ | ⟨rfl, ha⟩ | ⟨r, -, -, ha⟩ <;> rw [State.perform, ha] at h
    · obtain rfl := Host.Outcome.next.inj h
      exact ⟨rfl, rfl⟩
    · cases hv : decode v with
      | error d =>
        rw [State.command_of_decode_error hv] at h
        obtain rfl := Host.Outcome.next.inj h
        exact ⟨rfl, rfl⟩
      | ok i =>
        rw [State.command_of_decode_ok hv] at h
        obtain ⟨hsrst, hkey⟩ := not_or.1 (mt List.mem_cons.2 (hcmd v i rfl hv))
        exact (exec_leaves hsrst h).key hkey
    · obtain rfl := Host.Outcome.next.inj h
      exact ⟨by simp, by simp⟩

/-- Settles O19: any other event leaves the key. -/
theorem derivedKeyIsASnapshot : Obligations.DerivedKeyIsASnapshot := by
  intro s t h hchanged
  cases hhost : s.host with
  | nil =>
    rw [step_idle hhost] at h
    obtain rfl := Host.Outcome.next.inj h
    exact absurd ⟨rfl, rfl⟩ hchanged
  | cons e es =>
    rw [step_event hhost] at h
    refine ⟨es, ?_⟩
    by_contra hother
    obtain ⟨hreset, hcmd⟩ := not_or.1 hother
    refine hchanged (State.perform_key (s := { s with host := es }) (fun he => hreset (by rw [he])) (fun w i he hw hi => ?_) h)
    exact hcmd ⟨w, i, by rw [he], hw, hi⟩

end Sys2Proof.Machine
end

section
/-! PROOFS, 10_state.md R26, R43, R44, 60_exceptions.md R294. The invariant in three parts: the buffers, of which an operation writes
FB alone; the engines with their validity flags; and the record of faults. -/

namespace Sys2Proof.Machine

/-! ### The engines with their validity flags -/

/-- The parts of the invariant that speak of the engines (10_state.md R26, R41, R43). -/
structure State.EnginesOk (s : State) : Prop where
  block : s.sha.BlockOk
  sha : s.shav = true → s.sha.Ready
  dg : s.dgv = true → s.dg.isSome
  dk : s.dkv = true → s.dk.isSome
  rc4 : s.rc4v = true → s.s.isSome
  sbox : s.SboxOk

theorem State.inv_iff {s : State} : s.Inv ↔ s.BuffersOk ∧ s.EnginesOk ∧ s.FaultRecorded := by
  constructor
  · rintro ⟨hbuffers, hblock, ⟨hsha, hdg, hdk, hrc4⟩, hsbox, hrecorded⟩
    exact ⟨hbuffers, ⟨hblock, hsha, hdg, hdk, hrc4, hsbox⟩, hrecorded⟩
  · rintro ⟨hbuffers, ⟨hblock, hsha, hdg, hdk, hrc4, hsbox⟩, hrecorded⟩
    exact ⟨hbuffers, hblock, ⟨hsha, hdg, hdk, hrc4⟩, hsbox, hrecorded⟩

/-- Whatever a keyed cipher state gives, its S stays a permutation. -/
theorem Rc4.advance_perm (n : Nat) (c : Rc4) : (c.advance n).s.toList.Perm c.s.toList := by
  induction n generalizing c with
  | zero => exact .refl _
  | succ n ih => exact (ih _).trans c.next_perm

section Engines
variable {s t : State}

theorem State.EnginesOk.of_sameCipher (h : s.EnginesOk) (hst : s.SameCipher t) : t.EnginesOk := by
  obtain ⟨hsha, hshav, hdg, hdgv, hdk, hdkv, hs, -, -, hrc4v⟩ := hst
  constructor
  · rw [hsha]; exact h.block
  · rw [hsha, hshav]; exact h.sha
  · rw [hdg, hdgv]; exact h.dg
  · rw [hdk, hdkv]; exact h.dk
  · rw [hs, hrc4v]; exact h.rc4
  · unfold State.SboxOk; rw [hs]; exact h.sbox

theorem State.EnginesOk.initSha (h : s.EnginesOk) : s.initSha.EnginesOk :=
  { h with block := ShaEngine.init_ready.2, sha := fun _ => ShaEngine.init_ready.1 }

theorem State.EnginesOk.absorbed (h : s.EnginesOk) (hshav : s.shav = true) {bs : List Byte} {e : ShaEngine}
    (he : s.sha.absorbAll bs = .ok e) : State.EnginesOk { s with sha := e } := by
  obtain ⟨e', he', hready⟩ := ShaEngine.absorbAll_ready (h.sha hshav) bs
  obtain rfl := Except.ok.inj (he'.symm.trans he)
  exact { h with block := ShaEngine.absorbAll_blockOk he h.block, sha := fun _ => hready }

theorem State.EnginesOk.finishSha (h : s.EnginesOk) (ht : s.finishSha = .ok t) : t.EnginesOk := by
  have hblock := State.finishSha_blockOk ht h.block
  obtain ⟨e, c, -, -, ⟨-, rfl⟩ | ⟨-, rfl⟩⟩ := State.finishSha_cases ht
  · exact { h with block := hblock, sha := nofun, dg := fun _ => rfl }
  · exact { h with block := hblock, sha := nofun, dg := fun _ => rfl }

theorem State.EnginesOk.deriveKeyInto (h : s.EnginesOk) {k1 k2 : List Byte} (ht : s.deriveKeyInto k1 k2 = .ok t) :
    t.EnginesOk := by
  obtain ⟨t', ht', hframe, -, -, hdk, hsome, hshav, hblock⟩ := s.deriveKeyInto_spec k1 k2
  obtain rfl := Except.ok.inj (ht'.symm.trans ht)
  constructor
  · exact hblock
  · exact fun hopen => absurd (hshav.symm.trans hopen) nofun
  · exact fun _ => hdk ▸ hsome
  · exact fun _ => hsome
  · rw [hframe]; exact h.rc4
  · rw [hframe]; exact h.sbox

theorem State.EnginesOk.scheduled (h : s.EnginesOk) (key : List Byte) (i j : Byte) :
    State.EnginesOk { s with s := some (rc4Ksa key), ri := i, rj := j, rc4v := true } :=
  { h with
    rc4 := fun _ => rfl
    sbox := fun _ hsb => Option.some.inj hsb ▸ ksaSteps_perm key 256 }

theorem State.EnginesOk.advanced (h : s.EnginesOk) {c : Rc4} (hc : s.cipher = .ok c) (n : Nat) :
    (s.setCipher (c.advance n)).EnginesOk := by
  obtain ⟨-, hs, -, -⟩ := State.cipher_eq_ok.1 hc
  refine { h with rc4 := fun _ => rfl, sbox := fun sb hsb => ?_ }
  obtain rfl := Option.some.inj hsb
  exact (c.advance_perm n).trans (h.sbox _ hs)

theorem State.EnginesOk.deriveAndCrypt (h : s.EnginesOk) {k1 k2 seg out : List Byte}
    (ht : s.deriveAndCrypt k1 k2 seg = .ok (out, t)) : t.EnginesOk := by
  obtain ⟨a, ha, ht⟩ := Check.bind_eq_ok.1 ht
  obtain ⟨b, hb, ht⟩ := Check.bind_eq_ok.1 ht
  obtain ⟨key, -, -, rfl⟩ := State.scheduleKey_eq_ok.1 hb
  obtain ⟨c, hc, -, rfl⟩ := State.xorKeystream_eq_ok.1 ht
  exact ((h.deriveKeyInto ha).scheduled _ 0 0).advanced hc _

theorem State.EnginesOk.validated (h : s.EnginesOk) (f : List Byte) : (s.validated f).EnginesOk :=
  h.of_sameCipher (by simp [State.SameCipher])

theorem State.EnginesOk.decoded (h : s.EnginesOk) {f : List Byte} {keys : Option (List Byte × List Byte)}
    (ht : s.decoded f keys = .ok t) : t.EnginesOk := by
  rcases State.decoded_cases ht with ⟨c, -, rfl⟩ | rfl | ⟨k1, k2, seg, u, -, hu, rfl⟩
  · exact { h with }
  · exact { h with }
  · have hmarked : State.EnginesOk { s with rxenc := true } := { h with }
    exact { hmarked.deriveAndCrypt hu with }

theorem State.EnginesOk.received (h : s.EnginesOk) {f : List Byte} {keys : Option (List Byte × List Byte)}
    (ht : s.received f keys = .ok t) : t.EnginesOk := by
  rcases State.received_cases ht with ⟨-, rfl⟩ | ⟨u, hu, rfl | rfl⟩
  · exact { h.validated f with }
  · exact { (h.validated f).decoded hu with }
  · exact (h.validated f).decoded hu

theorem State.EnginesOk.encoded (h : s.EnginesOk) {r : ReplyArgs} {keys : Option (List Byte × List Byte)}
    (ht : s.encoded r keys = .ok t) : t.EnginesOk := by
  rcases s.encoded_cases r keys with ⟨-, heq⟩ | ⟨k1, k2, seg, u, -, hu, heq⟩ <;>
    obtain rfl := Except.ok.inj (heq.symm.trans ht)
  · exact { h with }
  · have hsummed : State.EnginesOk { s with sum8 := sum8Of (replyBody r) } := { h with }
    exact { hsummed.deriveAndCrypt hu with }

theorem exec_keeps_engines {i : Instr} (hi : i ≠ .srst) (h : s.EnginesOk) (ht : exec i s = .next t) : t.EnginesOk := by
  rcases exec_effect ht with ⟨c, rfl⟩ | heffect
  · exact { h with }
  cases i with
  | srst => exact absurd rfl hi
  | nop =>
    obtain rfl := heffect
    exact h
  | crc16Init | crc16Updb | crc16Updr | sum8Init | sum8Updb | sum8Updr =>
    obtain ⟨_, rfl⟩ := heffect
    exact { h with }
  | crc16Put | sum8Put =>
    obtain ⟨_, _, -, rfl⟩ := heffect
    exact { h with }
  | shaInit =>
    obtain rfl := heffect
    exact { h.initSha with }
  | shaUpdb | shaUpdr | shaUpdk1 | shaUpdk2 | shaUpddg =>
    obtain ⟨bs, e, hshav, he, rfl⟩ := heffect
    exact { h.absorbed hshav he with }
  | shaFin =>
    obtain ⟨u, -, hu, rfl⟩ := heffect
    exact { h.finishSha hu with }
  | kdfRun =>
    obtain ⟨k1, k2, u, hu, rfl⟩ := heffect
    exact { h.deriveKeyInto hu with }
  | kdfLatch =>
    obtain ⟨d, -, rfl⟩ := heffect
    exact { h with dk := fun _ => rfl }
  | rc4Ksa =>
    obtain ⟨key, rfl⟩ := heffect
    exact { h.scheduled key 0 0 with }
  | rc4Xorr =>
    obtain ⟨c, bs, hc, -, rfl⟩ := heffect
    exact { h.advanced hc _ with }
  | rc4Gen =>
    obtain ⟨c, hc, rfl⟩ := heffect
    exact { h.advanced hc 1 with }
  | frmValidate =>
    obtain ⟨f, rfl⟩ := heffect
    exact h.validated f
  | frmDecode =>
    obtain ⟨f, keys, -, hdecoded⟩ := heffect
    exact h.decoded hdecoded
  | frmRx =>
    obtain ⟨f, keys, -, hreceived⟩ := heffect
    exact h.received hreceived
  | frmEncode =>
    obtain ⟨dev, extra, keys, -, -, hencoded⟩ := heffect
    exact h.encoded hencoded

end Engines

/-! ### The buffers -/

/-- FB is as it was, or has been written inside FB_SIZE. -/
def State.FbWritten (s t : State) : Prop :=
  t.fb = s.fb ∨ ∃ off bs, off + bs.length ≤ s.cfg.fbSize ∧ t.fb = s.fb.writeRange off bs

section Buffers
variable {s t : State}

theorem State.decoded_fbWritten {f : List Byte} {keys : Option (List Byte × List Byte)} (hf : f.length ≤ s.cfg.fbSize)
    (ht : s.decoded f keys = .ok t) : s.FbWritten t := by
  rcases State.decoded_cases ht with ⟨c, -, rfl⟩ | rfl | ⟨k1, k2, seg, u, hlen, hu, rfl⟩
  · exact .inl rfl
  · exact .inl rfl
  · obtain ⟨hframe, hseg⟩ := State.deriveAndCrypt_onlyCipherChanged hu
    have hfits : 21 + seg.length ≤ s.cfg.fbSize := by
      have hmin : 26 ≤ f.length := hlen
      rw [hseg, segmentOf_length]
      omega
    refine .inr ⟨fixedLen, seg, hfits, ?_⟩
    rw [hframe]
    rfl

theorem State.received_fbWritten {f : List Byte} {keys : Option (List Byte × List Byte)} (hf : f.length ≤ s.cfg.fbSize)
    (ht : s.received f keys = .ok t) : s.FbWritten t := by
  have hvalidated (u : State) (h : (s.validated f).FbWritten u) : s.FbWritten u := by
    rwa [State.FbWritten, State.validated_fb, State.validated_cfg] at h
  rw [← s.validated_cfg f] at hf
  rcases State.received_cases ht with ⟨-, rfl⟩ | ⟨u, hu, rfl | rfl⟩
  · exact .inl (s.validated_fb f)
  · exact hvalidated u (State.decoded_fbWritten hf hu)
  · exact hvalidated _ (State.decoded_fbWritten hf hu)

/-- The longest reply fits (00_scope.md R9). -/
theorem State.encoded_fbWritten {r : ReplyArgs} {keys : Option (List Byte × List Byte)} (hdev : r.deviceId.length = 10)
    (hextra : r.extra.length ≤ txxMax) (ht : s.encoded r keys = .ok t) : s.FbWritten t := by
  have hcap := s.cfg.fbSize_ge
  have hfits {seg : List Byte} (hseg : seg.length = (replySegment r).length) :
      0 + (replyFrame r seg).length ≤ s.cfg.fbSize := by
    have hmax : r.extra.length ≤ 253 := hextra
    rw [replyFrame_length hdev (hseg.trans (replySegment_length r))]
    omega
  rcases s.encoded_cases r keys with ⟨-, heq⟩ | ⟨k1, k2, seg, u, -, hu, heq⟩ <;>
    obtain rfl := Except.ok.inj (heq.symm.trans ht)
  · exact .inr ⟨0, _, hfits rfl, rfl⟩
  · obtain ⟨hframe, hseg⟩ := State.deriveAndCrypt_onlyCipherChanged hu
    refine .inr ⟨0, _, hfits hseg, ?_⟩
    rw [hframe]
    rfl

theorem exec_fbWritten {i : Instr} (hi : i ≠ .srst) (ht : exec i s = .next t) : s.FbWritten t := by
  rcases exec_effect ht with ⟨c, rfl⟩ | heffect
  · exact .inl rfl
  cases i with
  | srst => exact absurd rfl hi
  | nop | shaInit =>
    obtain rfl := heffect
    exact .inl rfl
  | crc16Init | crc16Updb | crc16Updr | sum8Init | sum8Updb | sum8Updr | rc4Ksa =>
    obtain ⟨_, rfl⟩ := heffect
    exact .inl rfl
  | crc16Put | sum8Put =>
    obtain ⟨off, bs, hle, rfl⟩ := heffect
    exact .inr ⟨off, bs, hle, rfl⟩
  | shaUpdb | shaUpdr | shaUpdk1 | shaUpdk2 | shaUpddg =>
    obtain ⟨_, _, -, -, rfl⟩ := heffect
    exact .inl rfl
  | shaFin =>
    obtain ⟨u, -, hu, rfl⟩ := heffect
    obtain ⟨_, _, -, -, ⟨-, rfl⟩ | ⟨-, rfl⟩⟩ := State.finishSha_cases hu <;> exact .inl rfl
  | kdfRun =>
    obtain ⟨k1, k2, u, hu, rfl⟩ := heffect
    obtain ⟨u', hu', hframe, -⟩ := s.deriveKeyInto_spec k1 k2
    obtain rfl := Except.ok.inj (hu'.symm.trans hu)
    rw [hframe]
    exact .inl rfl
  | kdfLatch =>
    obtain ⟨_, -, rfl⟩ := heffect
    exact .inl rfl
  | rc4Xorr off len =>
    obtain ⟨c, bs, -, ⟨hflen, hrange, hlen, -⟩, rfl⟩ := heffect
    refine .inr ⟨off, _, ?_, rfl⟩
    rw [Rc4.xorBytes_length]
    omega
  | rc4Gen =>
    obtain ⟨_, -, rfl⟩ := heffect
    exact .inl rfl
  | frmValidate =>
    obtain ⟨f, rfl⟩ := heffect
    exact .inl (s.validated_fb f)
  | frmDecode =>
    obtain ⟨f, keys, ⟨hflen, hlen, -⟩, hdecoded⟩ := heffect
    exact State.decoded_fbWritten (hlen ▸ hflen) hdecoded
  | frmRx =>
    obtain ⟨f, keys, ⟨hflen, hlen, -⟩, hreceived⟩ := heffect
    exact State.received_fbWritten (hlen ▸ hflen) hreceived
  | frmEncode =>
    obtain ⟨dev, extra, keys, hdev, hextra, hencoded⟩ := heffect
    exact State.encoded_fbWritten hdev hextra hencoded

/-- One buffer replaced by contents in canonical form and inside its size. -/
theorem State.BuffersOk.setBuffer (h : s.BuffersOk) {b : Buf} {m : Memory} (hwf : m.wf) (hwithin : m.within (b.size s.cfg)) :
    (s.setBuffer b m).BuffersOk := by
  intro b' hb'
  rw [State.setBuffer_cfg]
  by_cases hb : b' = b
  · subst hb
    rw [State.buffer_setBuffer_self]
    exact ⟨hwf, hwithin⟩
  · rw [State.buffer_setBuffer_of_ne s m hb]
    exact h b' hb'

/-- Only the parameters and the buffers matter. -/
theorem State.BuffersOk.of_eq (h : s.BuffersOk) (hcfg : t.cfg = s.cfg) (hbuffer : ∀ b, t.buffer b = s.buffer b) :
    t.BuffersOk := by
  intro b hb
  rw [hbuffer, hcfg]
  exact h b hb

theorem State.BuffersOk.fbWritten (h : s.BuffersOk) (hfb : s.FbWritten t) : (s.setBuffer .fb t.fb).BuffersOk := by
  obtain ⟨hwf, hwithin⟩ := h .fb (mem_allBufs _)
  rcases hfb with heq | ⟨off, bs, hle, heq⟩ <;> rw [heq]
  · exact h.setBuffer hwf hwithin
  · exact h.setBuffer (Memory.wf_writeRange hwf off bs) (Memory.within_writeRange hwithin bs hle)

theorem exec_keeps_buffers {i : Instr} (hi : i ≠ .srst) (h : s.BuffersOk) (ht : exec i s = .next t) : t.BuffersOk := by
  have hothers := (exec_leaves hi ht).others
  refine (h.fbWritten (exec_fbWritten hi ht)).of_eq ?_ fun b => ?_ <;> rw [hothers]
  · rfl
  · cases b <;> rfl

end Buffers

/-! ### The invariant -/

/-- Settles O13: nothing holds a value, and no flag is 1. -/
theorem resetSatisfiesTheInvariant : Obligations.ResetSatisfiesTheInvariant := by
  intro c
  refine State.inv_iff.2 ⟨fun b _ => ?_, ?_, nofun⟩
  · rw [State.resetWith_buffer]
    exact ⟨.nil, nofun⟩
  · exact ⟨⟨.nil, nofun⟩, nofun, nofun, nofun, nofun, nofun⟩

section Invariant
variable {s t : State}

/-- The model's records of the host, and the registers, are not in the invariant. -/
theorem State.Inv.of_same (h : s.Inv) (hcfg : t.cfg = s.cfg) (hbuffer : ∀ b, t.buffer b = s.buffer b)
    (hcipher : s.SameCipher t) (herr : t.err = s.err) (hfault : t.fault = s.fault) : t.Inv := by
  obtain ⟨hbuffers, hengines, hrecorded⟩ := State.inv_iff.1 h
  refine State.inv_iff.2 ⟨hbuffers.of_eq hcfg hbuffer, hengines.of_sameCipher hcipher, ?_⟩
  unfold State.FaultRecorded
  rwa [herr, hfault]

theorem State.Inv.withHost (h : s.Inv) (es : List HostEvent) (r : Reply) (n : Nat) :
    State.Inv { s with host := es, reply := r, freeCount := n } :=
  h.of_same rfl (fun b => by cases b <;> rfl) (by simp [State.SameCipher]) rfl rfl

theorem State.Inv.raise (h : s.Inv) (c : FaultCode) : (s.raise c).Inv := by
  obtain ⟨hbuffers, hengines, -⟩ := State.inv_iff.1 h
  exact State.inv_iff.2 ⟨hbuffers.of_eq rfl fun b => by cases b <;> rfl, { hengines with }, fun _ _ => rfl⟩

theorem State.resetBlock_inv (s : State) : s.resetBlock.Inv :=
  (resetSatisfiesTheInvariant s.cfg).withHost s.host s.reply s.freeCount

theorem State.Inv.exec {i : Instr} (h : s.Inv) (ht : Machine.exec i s = .next t) : t.Inv ∧ t.cfg = s.cfg := by
  by_cases hsrst : i = .srst
  · subst hsrst
    obtain rfl := Host.Outcome.next.inj ht
    exact ⟨s.resetBlock_inv, rfl⟩
  have hcfg : t.cfg = s.cfg := by rw [(exec_leaves hsrst ht).others]
  refine ⟨?_, hcfg⟩
  by_cases hnop : i = .nop
  · subst hnop
    obtain rfl := Host.Outcome.next.inj ht
    exact h
  rcases exec_cases hnop hsrst ht with ⟨c, rfl⟩ | ⟨herr, -⟩
  · exact h.raise c
  · obtain ⟨hbuffers, hengines, -⟩ := State.inv_iff.1 h
    exact State.inv_iff.2 ⟨exec_keeps_buffers hsrst hbuffers ht, exec_keeps_engines hsrst hengines ht,
      fun c hc => absurd hc (herr c)⟩

theorem State.Inv.command {w : Word} (h : s.Inv) (ht : s.command w = .next t) : t.Inv ∧ t.cfg = s.cfg := by
  cases hw : decode w with
  | error d =>
    rw [State.command_of_decode_error hw] at ht
    obtain rfl := Host.Outcome.next.inj ht
    exact ⟨h.raise _, rfl⟩
  | ok i =>
    rw [State.command_of_decode_ok hw] at ht
    exact h.exec ht

theorem State.Inv.writeReg (h : s.Inv) (r : Reg) (v : Word) : (s.writeReg r v).Inv :=
  h.of_same (s.writeReg_cfg r v) (s.writeReg_buffer r v) (by simp [State.SameCipher]) (s.writeReg_err r v) (s.writeReg_fault r v)

/-- A byte written inside a buffer's window. -/
theorem State.Inv.writeByte (h : s.Inv) {a : Nat} {b : Buf} (hb : bufAt s.cfg a = some b) (v : Byte) :
    (s.setBuffer b ((s.buffer b).write (a - b.base) v)).Inv := by
  obtain ⟨hbuffers, hengines, hrecorded⟩ := State.inv_iff.1 h
  obtain ⟨hle, hlt⟩ := bufAt_eq_some.1 hb
  obtain ⟨hwf, hwithin⟩ := hbuffers b (mem_allBufs b)
  refine State.inv_iff.2 ⟨hbuffers.setBuffer (Memory.wf_write hwf _ v) (Memory.within_write hwithin (by omega) v),
    hengines.of_sameCipher (by simp [State.SameCipher]), ?_⟩
  unfold State.FaultRecorded
  rwa [State.setBuffer_err, State.setBuffer_fault]

theorem State.Inv.perform {e : HostEvent} (h : s.Inv) (ht : s.perform e = .next t) : t.Inv ∧ t.cfg = s.cfg := by
  cases e with
  | read16 | write16 =>
    obtain rfl := Host.Outcome.next.inj ht
    exact ⟨h.withHost _ _ _, rfl⟩
  | platformReset =>
    obtain rfl := Host.Outcome.next.inj ht
    exact ⟨s.resetBlock_inv.withHost _ _ _, rfl⟩
  | read8 a =>
    obtain rfl := Host.Outcome.next.inj ht
    obtain ⟨r, n, (heq : s.hostRead8 a = _), -⟩ := s.hostRead8_readOnly a
    rw [heq]
    exact ⟨h.withHost _ r n, rfl⟩
  | read32 a =>
    obtain rfl := Host.Outcome.next.inj ht
    obtain ⟨r, n, (heq : s.hostRead32 a = _), -⟩ := s.hostRead32_readOnly a
    rw [heq]
    exact ⟨h.withHost _ r n, rfl⟩
  | write8 a v =>
    obtain rfl := Host.Outcome.next.inj ht
    rcases s.hostWrite8_cases a v with ⟨-, heq⟩ | ⟨b, hb, heq⟩ <;> rw [heq]
    · exact ⟨h.withHost _ _ _, rfl⟩
    · exact ⟨(h.writeByte hb v).withHost _ _ _, by simp⟩
  | write32 a v =>
    rcases s.hostWrite32_cases a v with ⟨-, heq⟩ | ⟨-, heq⟩ | ⟨r, -, -, heq⟩ <;> rw [State.perform, heq] at ht
    · obtain rfl := Host.Outcome.next.inj ht
      exact ⟨h.withHost _ _ _, rfl⟩
    · exact (h.withHost _ _ _ : (s.answer .done).Inv).command ht
    · obtain rfl := Host.Outcome.next.inj ht
      exact ⟨(h.writeReg r v).withHost _ _ _, by simp⟩

end Invariant

/-- Settles O12: taking the event changes nothing that matters, and performing it keeps the invariant. -/
theorem everyStepKeepsTheInvariant : Obligations.EveryStepKeepsTheInvariant := by
  intro s t h ht
  cases hhost : s.host with
  | nil =>
    rw [step_idle hhost] at ht
    obtain rfl := Host.Outcome.next.inj ht
    exact ⟨h, rfl⟩
  | cons e es =>
    rw [step_event hhost] at ht
    exact (h.withHost es s.reply s.freeCount).perform ht

end Sys2Proof.Machine
end

section
/-! PROOFS, 60_exceptions.md R291, R299. Each check of an operation can fail only with faults of its list, and what it answers ends in ok
or in a reject of its list. -/

namespace Sys2Proof.Machine

/-- The outcome stands in the operation's row of the table (60_exceptions.md R299). -/
def ListedOutcome (i : Instr) (e : Err) : Prop :=
  e = .ok ∨ (∃ c ∈ possibleRejects i, e = .reject c) ∨ ∃ c ∈ possibleFaults i, e = .fault c

/-- The check fails with no other fault. -/
def FailsIn {α : Type} (faults : List FaultCode) (x : Check α) : Prop := ∀ c, x = .error c → c ∈ faults

/-- Whatever the operation's computation answers or fails with stands in its row. -/
structure Listed (i : Instr) (r : Check State) : Prop where
  outcome : ∀ t, r = .ok t → ListedOutcome i t.err
  fault : FailsIn (possibleFaults i) r

section ListedRules
variable {i : Instr} {s t : State} {r : Check State} {α : Type} {faults : List FaultCode}

theorem Listed.answer (h : ListedOutcome i t.err) : Listed i (.ok t) where
  outcome _ ht := Except.ok.inj ht ▸ h
  fault _ hc := nomatch hc

theorem Listed.read {x : Check α} {k : α → Check State} (hx : FailsIn faults x) (hk : ∀ a, x = .ok a → Listed i (k a))
    (hfaults : faults ⊆ possibleFaults i := by simp [possibleFaults]) : Listed i (x >>= k) where
  outcome t ht :=
    let ⟨a, ha, hka⟩ := Check.bind_eq_ok.1 ht
    (hk a ha).outcome t hka
  fault c hc := by
    rcases Check.bind_eq_error.1 hc with hfail | ⟨a, ha, hfail⟩
    · exact hfaults (hx c hfail)
    · exact (hk a ha).fault c hfail

/-- A change that answers, whatever it is, followed by the outcome ok. -/
theorem Listed.succeed (h : ∃ t, r = .ok t) : Listed i (r >>= fun t => .ok t.succeed) := by
  obtain ⟨t, rfl⟩ := h
  exact .answer (.inl rfl)

/-- A change that answers, with ok or a reject of the list. -/
theorem Listed.of_rejects (hends : EndsWithoutFault r)
    (h : ∀ t, r = .ok t → t.err = .ok ∨ ∃ c ∈ possibleRejects i, t.err = .reject c) : Listed i r := by
  obtain ⟨t, rfl, -⟩ := hends
  exact .answer ((h t rfl).imp_right .inl)

theorem Listed.of_attempt (h : Listed i r) (ht : s.attempt r = .next t) : ListedOutcome i t.err := by
  rcases State.attempt_eq_next.1 ht with hok | ⟨c, hc, rfl⟩
  · exact h.outcome t hok
  · exact .inr (.inr ⟨c, h.fault c hc, rfl⟩)

end ListedRules

/-! ### What the checks fail with -/

section Checks
variable {s : State}

theorem State.fbRange_failsIn (off len : Nat) : FailsIn [.range, .undef] (s.fbRange off len) := fun c hc => by
  rcases State.fbRange_eq_error.1 hc with ⟨rfl, -⟩ | ⟨rfl, -⟩ <;> simp

theorem State.fbPut_failsIn (off : Nat) (bs : List Byte) : FailsIn [.range] (s.fbPut off bs) := fun c hc => by
  obtain ⟨rfl, -⟩ := State.fbPut_eq_error.1 hc
  simp

theorem State.readKey1_failsIn : FailsIn [.keyLen, .undef] s.readKey1 := fun c hc => by
  rcases State.readKey1_eq_error.1 hc with ⟨rfl, -⟩ | ⟨rfl, -⟩ <;> simp

theorem State.readKey2_failsIn : FailsIn [.keyLen, .undef] s.readKey2 := fun c hc => by
  rcases State.readKey2_eq_error.1 hc with ⟨rfl, -⟩ | ⟨rfl, -⟩ <;> simp

theorem State.readKeys_failsIn : FailsIn [.keyLen, .undef] s.readKeys := fun c hc => by
  rcases State.readKeys_eq_error.1 hc with ⟨rfl, -⟩ | ⟨rfl, -⟩ <;> simp

theorem State.readKeysIf_failsIn (derives : Bool) : FailsIn [.keyLen, .undef] (s.readKeysIf derives) := fun c hc => by
  cases derives with
  | false => cases hc
  | true =>
    rcases Check.bind_eq_error.1 hc with hfail | ⟨ks, -, hfail⟩
    · exact State.readKeys_failsIn c hfail
    · cases hfail

theorem State.readTx_failsIn (x : Nat) : FailsIn [.undef] (s.readTx x) := fun c hc => by
  obtain ⟨rfl, -⟩ := State.readTx_eq_error.1 hc
  simp

theorem State.openSha_failsIn : FailsIn [.noSha] s.openSha := fun c hc => by
  obtain ⟨rfl, -⟩ := State.openSha_eq_error.1 hc
  simp

/-! In a state that a run reaches, a flag that is 1 has its value, so only the flag can fail (10_state.md R26). -/

theorem State.EnginesOk.digest_failsIn (h : s.EnginesOk) : FailsIn [.noDg] s.digest := fun c hc => by
  rcases State.digest_eq_error.1 hc with ⟨rfl, -⟩ | ⟨-, hdgv, hnone⟩
  · simp
  · exact absurd (hnone ▸ h.dg hdgv) nofun

theorem State.EnginesOk.derivedKey_failsIn (h : s.EnginesOk) : FailsIn [.noKey] s.derivedKey := fun c hc => by
  rcases State.derivedKey_eq_error.1 hc with ⟨rfl, -⟩ | ⟨-, hdkv, hnone⟩
  · simp
  · exact absurd (hnone ▸ h.dk hdkv) nofun

theorem State.EnginesOk.cipher_failsIn (h : s.EnginesOk) : FailsIn [.noKs] s.cipher := fun c hc => by
  rcases State.cipher_eq_error.1 hc with ⟨rfl, -⟩ | ⟨-, hrc4v, hnone⟩
  · simp
  · exact absurd (hnone ▸ h.rc4 hrc4v) nofun

theorem State.EnginesOk.latchKey_failsIn (h : s.EnginesOk) : FailsIn [.noDg] s.latchKey := fun c hc =>
  (Check.bind_eq_error.1 hc).elim (h.digest_failsIn c) fun ⟨_, _, hanswer⟩ => nomatch hanswer

theorem State.EnginesOk.scheduleKey_failsIn (h : s.EnginesOk) : FailsIn [.noKey] s.scheduleKey := fun c hc =>
  (Check.bind_eq_error.1 hc).elim (h.derivedKey_failsIn c) fun ⟨_, _, hanswer⟩ => nomatch hanswer

theorem State.EnginesOk.xorKeystream_failsIn (h : s.EnginesOk) (bs : List Byte) : FailsIn [.noKs] (s.xorKeystream bs) :=
  fun c hc => (Check.bind_eq_error.1 hc).elim (h.cipher_failsIn c) fun ⟨_, _, hanswer⟩ => nomatch hanswer

/-- With the message open the engine absorbs anything. -/
theorem State.EnginesOk.absorbSha_answers (h : s.EnginesOk) {e : ShaEngine} (hopen : s.openSha = .ok e) (bs : List Byte) :
    ∃ t, s.absorbSha bs = .ok t := by
  obtain ⟨hshav, -⟩ := State.openSha_eq_ok.1 hopen
  obtain ⟨e', he', -⟩ := ShaEngine.absorbAll_ready (h.sha hshav) bs
  exact ⟨_, State.absorbSha_eq_ok.2 ⟨e', he', rfl⟩⟩

end Checks

/-! ### What the frame operations answer -/

theorem State.validated_outcome (s : State) (f : List Byte) :
    (s.validated f).err = .ok ∨ ∃ c ∈ [RejectCode.tooShort, .endMarker, .crc16], (s.validated f).err = .reject c := by
  rcases s.validated_cases f with ⟨-, h⟩ | ⟨-, -, h⟩ | ⟨-, -, -, h⟩ | ⟨-, -, -, h⟩ <;> rw [h] <;> simp

theorem State.decoded_outcome {s t : State} {f : List Byte} {keys : Option (List Byte × List Byte)}
    (h : s.decoded f keys = .ok t) :
    t.err = .ok ∨ ∃ c ∈ [RejectCode.decodeShort, .segmentShort], t.err = .reject c := by
  rcases State.decoded_cases h with ⟨c, hc, rfl⟩ | rfl | ⟨_, _, _, _, -, -, rfl⟩
  · exact .inr ⟨c, hc, rfl⟩
  · exact .inl rfl
  · exact .inl rfl

theorem State.received_outcome {s t : State} {f : List Byte} {keys : Option (List Byte × List Byte)}
    (h : s.received f keys = .ok t) : t.err = .ok ∨ ∃ c ∈ possibleRejects .frmRx, t.err = .reject c := by
  rcases State.received_cases h with ⟨-, rfl⟩ | ⟨u, hu, rfl | rfl⟩
  · exact (s.validated_outcome f).imp_right fun ⟨c, hc, herr⟩ =>
      ⟨c, List.mem_append_left [RejectCode.decodeShort, .segmentShort, .crc8] hc, herr⟩
  · exact .inr ⟨.crc8, by decide, rfl⟩
  · exact (State.decoded_outcome hu).imp_right fun ⟨c, hc, herr⟩ =>
      ⟨c, List.mem_append_right [RejectCode.tooShort, .endMarker, .crc16] (List.mem_append_left [RejectCode.crc8] hc), herr⟩

/-! ### The obligation -/

/-- Settles O11: the checks and the change of each operation, against its row. -/
theorem operationEndsInAListedOutcome : Obligations.OperationEndsInAListedOutcome := by
  intro i s t hinv hnop h
  obtain ⟨-, hengines, -⟩ := State.inv_iff.1 hinv
  show ListedOutcome i t.err
  cases i with
  | nop => exact absurd rfl hnop
  | srst | crc16Init | crc16Updb | sum8Init | sum8Updb | shaInit =>
    obtain rfl := Host.Outcome.next.inj h
    exact .inl rfl
  | crc16Updr | sum8Updr =>
    exact Listed.of_attempt (.read (State.fbRange_failsIn _ _) fun _ _ => .answer (.inl rfl)) h
  | crc16Put | sum8Put => exact Listed.of_attempt (.read (State.fbPut_failsIn _ _) fun _ _ => .answer (.inl rfl)) h
  | shaUpdb =>
    exact Listed.of_attempt
      (.read State.openSha_failsIn fun _ hopen => .succeed (hengines.absorbSha_answers hopen _)) h
  | shaUpdr =>
    exact Listed.of_attempt (.read State.openSha_failsIn fun _ hopen =>
      .read (State.fbRange_failsIn _ _) fun _ _ => .succeed (hengines.absorbSha_answers hopen _)) h
  | shaUpdk1 =>
    exact Listed.of_attempt (.read State.openSha_failsIn fun _ hopen =>
      .read State.readKey1_failsIn fun _ _ => .succeed (hengines.absorbSha_answers hopen _)) h
  | shaUpdk2 =>
    exact Listed.of_attempt (.read State.openSha_failsIn fun _ hopen =>
      .read State.readKey2_failsIn fun _ _ => .succeed (hengines.absorbSha_answers hopen _)) h
  | shaUpddg =>
    exact Listed.of_attempt (.read State.openSha_failsIn fun _ hopen =>
      .read hengines.digest_failsIn fun _ _ => .succeed (hengines.absorbSha_answers hopen _)) h
  | shaFin =>
    refine Listed.of_attempt (.read State.openSha_failsIn fun _ hopen => .succeed ?_) h
    exact State.finishSha_ready (hengines.sha (State.openSha_eq_ok.1 hopen).1)
  | kdfRun =>
    refine Listed.of_attempt (.read State.readKeys_failsIn fun ks _ => .succeed ?_) h
    obtain ⟨t, ht, -⟩ := s.deriveKeyInto_spec ks.1 ks.2
    exact ⟨t, ht⟩
  | kdfLatch => exact Listed.of_attempt (.read hengines.latchKey_failsIn fun _ _ => .answer (.inl rfl)) h
  | rc4Ksa => exact Listed.of_attempt (.read hengines.scheduleKey_failsIn fun _ _ => .answer (.inl rfl)) h
  | rc4Xorr =>
    exact Listed.of_attempt (.read hengines.cipher_failsIn fun _ _ => .read (State.fbRange_failsIn _ _) fun _ _ =>
      .read (hengines.xorKeystream_failsIn _) fun _ _ => .answer (.inl rfl)) h
  | rc4Gen => exact Listed.of_attempt (.read hengines.cipher_failsIn fun _ _ => .answer (.inl rfl)) h
  | frmValidate =>
    exact Listed.of_attempt (.read (State.fbRange_failsIn _ _) fun f _ =>
      .of_rejects ⟨_, rfl, s.validated_err_ne f⟩ (fun _ ht => Except.ok.inj ht ▸ s.validated_outcome f)) h
  | frmDecode =>
    exact Listed.of_attempt (.read (State.fbRange_failsIn _ _) fun f _ => .read (State.readKeysIf_failsIn _) fun keys _ =>
      .of_rejects (s.decoded_endsWithoutFault f keys) (fun _ => State.decoded_outcome)) h
  | frmRx =>
    exact Listed.of_attempt (.read (State.fbRange_failsIn _ _) fun f _ => .read (State.readKeysIf_failsIn _) fun keys _ =>
      .of_rejects (s.received_endsWithoutFault f keys) (fun _ => State.received_outcome)) h
  | frmEncode =>
    by_cases hx : s.txxlen.toNat ≤ txxMax
    · rw [exec_frmEncode_of_le hx] at h
      refine Listed.of_attempt (.read (State.readKeysIf_failsIn _) fun keys _ => .read (State.readTx_failsIn _) fun p _ =>
        .of_rejects (s.encoded_endsWithoutFault _ keys) fun t ht => ?_) h
      rcases s.encoded_cases (s.replyArgs p.1 p.2) keys with ⟨-, heq⟩ | ⟨_, _, _, _, -, -, heq⟩ <;>
        obtain rfl := Except.ok.inj (heq.symm.trans ht) <;> exact .inl rfl
    · have hpayload : t = s.raise .payload := by
        refine (Host.Outcome.next.inj (h.symm.trans ?_))
        exact congrArg s.attempt (if_pos (Nat.lt_of_not_le hx))
      exact .inr (.inr ⟨.payload, .head _, by rw [hpayload]; rfl⟩)

end Sys2Proof.Machine
end

section
/-! PROOFS, 43_rc4.md R193, R197, section 1 consequence (a). Laid over the same bytes twice from one cipher state, the keystream cancels;
on the machine a fresh key schedule starts it again. -/

namespace Sys2Proof.Machine

/-! ### The keystream over bytes -/

/-- Each byte meets the keystream byte of its place. -/
theorem Rc4.getElem?_xorBytes (bs : List Byte) (c : Rc4) (k : Nat) :
    (c.xorBytes bs).1[k]? = bs[k]?.map (· ^^^ c.keystreamByte k) := by
  induction bs generalizing c k with
  | nil => rfl
  | cons b bs ih =>
    rw [Rc4.xorBytes_cons]
    cases k with
    | zero => rfl
    | succ k =>
      rw [List.getElem?_cons_succ, List.getElem?_cons_succ, ih]
      rfl

/-- The keystream cancels itself. -/
theorem Rc4.xorBytes_xorBytes (bs : List Byte) (c : Rc4) : (c.xorBytes (c.xorBytes bs).1).1 = bs := by
  induction bs generalizing c with
  | nil => rfl
  | cons b bs ih => rw [Rc4.xorBytes_cons, Rc4.xorBytes_cons, ih, BitVec.xor_assoc, BitVec.xor_self, BitVec.xor_zero]

@[simp] theorem rc4Crypt_length (key data : List Byte) : (rc4Crypt key data).length = data.length :=
  Rc4.xorBytes_length data _

/-- Settles O44: both times the keystream starts from the key's schedule. -/
theorem rc4CryptIsAnInvolution : Obligations.Rc4CryptIsAnInvolution := fun key data =>
  Rc4.xorBytes_xorBytes data (Rc4.ofKey key)

/-! ### What a written range holds -/

section WrittenRange
variable {m m' m'' : Memory} {i : Nat} {bs bs' : List Byte}

theorem Memory.WrittenTo.holds (h : m.WrittenTo m' i bs) : m'.Holds i bs := fun k hk => by
  rw [h, if_pos ⟨Nat.le_add_right i k, Nat.add_lt_add_left hk i⟩, Nat.add_sub_cancel_left]

theorem Memory.WrittenTo.read_of_outside (h : m.WrittenTo m' i bs) {a : Nat} (ha : a < i ∨ i + bs.length ≤ a) :
    m'.read a = m.read a := by
  rw [h, if_neg (by omega)]

/-- Bytes that were there and are written back leave the buffer as it was. -/
theorem Memory.WrittenTo.restored (hholds : m.Holds i bs) (h : m.WrittenTo m' i bs') (h' : m'.WrittenTo m'' i bs)
    (hlen : bs'.length = bs.length) (a : Nat) : m''.read a = m.read a := by
  by_cases ha : a < i ∨ i + bs.length ≤ a
  · rw [h'.read_of_outside ha, h.read_of_outside (hlen ▸ ha)]
  · obtain ⟨k, rfl⟩ := Nat.exists_eq_add_of_le (Nat.le_of_not_lt (not_or.1 ha).1)
    have hk : k < bs.length := by omega
    rw [h'.holds k hk, hholds k hk]

end WrittenRange

/-! ### The obligations -/

/-- Settles O42: the checks pass, and the bytes written are those read under the keystream. -/
theorem rc4XorrContinuesTheKeystream : Obligations.Rc4XorrContinuesTheKeystream := by
  intro s off len sb hrc4v hs c
  have hc : s.cipher = .ok c := State.cipher_eq_ok.2 ⟨hrc4v, hs, rfl, rfl⟩
  refine ⟨fun bs hbs => ?ok, fun hbound => ?range, fun hflen hlen hlacks => ?undef⟩
  case ok =>
    have hwritten := Memory.writeRange_writtenTo s.fb off (c.xorBytes bs).1
    refine ⟨_, exec_rc4Xorr_of_hasRange hc hbs, fun k b hb => ?_, fun a ha => hwritten.read_of_outside ?_⟩
    · obtain ⟨hk, -⟩ := List.getElem?_eq_some_iff.1 hb
      rw [hwritten.holds k (by rwa [Rc4.xorBytes_length]), Rc4.getElem?_xorBytes, hb]
      rfl
    · obtain ⟨-, -, hlen, -⟩ := hbs
      rwa [Rc4.xorBytes_length, hlen]
  case range =>
    rw [exec_rc4Xorr, hc, Check.ok_bind]
    exact State.attempt_fbRange_of_out_of_bounds _ hbound
  case undef =>
    rw [exec_rc4Xorr, hc, Check.ok_bind]
    exact State.attempt_fbRange_of_lacks _ hflen hlen hlacks

/-- RC4.KSA and then RC4.XORR over a range: the keystream of the key from its byte 0 (30_encoding.md R107). -/
theorem execAll_rc4Crypt {s : State} {off len : Nat} {k : Vector Byte 32} {bs : List Byte}
    (hbs : s.HasRange off len bs) (hdkv : s.dkv = true) (hdk : s.dk = some k) :
    execAll (Pseudo.rc4Crypt off len).expand s = .next { s.setCipher ((Rc4.ofKey k.toList).advance len) with
      fb := s.fb.writeRange off (rc4Crypt k.toList bs), rc4v := true, err := .ok } := by
  have hkeyed : State.HasRange { s with s := some (rc4Ksa k.toList), ri := 0, rj := 0, rc4v := true, err := .ok } off len bs := hbs
  have hc : State.cipher { s with s := some (rc4Ksa k.toList), ri := 0, rj := 0, rc4v := true, err := .ok } =
      .ok (Rc4.ofKey k.toList) := rfl
  rw [Pseudo.expand, execAll_cons ((rc4KsaSchedulesTheKey.2 s).1 k hdkv hdk),
    execAll_cons (exec_rc4Xorr_of_hasRange hc hkeyed), execAll_nil]
  rfl

/-- Settles O45: the second time the range holds the bytes that the first time left, and the keystream is the same. -/
theorem rescheduledXorrRestoresTheRange : Obligations.RescheduledXorrRestoresTheRange := by
  intro s off len k bs hdkv hdk hbs
  obtain ⟨hflen, hrange, hlen, hholds⟩ := hbs
  have hlen' : (rc4Crypt k.toList bs).length = bs.length := rc4Crypt_length _ _
  have hwritten := Memory.writeRange_writtenTo s.fb off (rc4Crypt k.toList bs)
  have hback := Memory.writeRange_writtenTo (s.fb.writeRange off (rc4Crypt k.toList bs)) off bs
  have hsecond : State.HasRange { s.setCipher ((Rc4.ofKey k.toList).advance len) with
      fb := s.fb.writeRange off (rc4Crypt k.toList bs), rc4v := true, err := .ok } off len (rc4Crypt k.toList bs) :=
    ⟨hflen, hrange, hlen'.trans hlen, hwritten.holds⟩
  have hrun := execAll_append (js := (Pseudo.rc4Crypt off len).expand)
    (execAll_rc4Crypt ⟨hflen, hrange, hlen, hholds⟩ hdkv hdk)
  rw [execAll_rc4Crypt hsecond hdkv hdk, rc4CryptIsAnInvolution] at hrun
  exact ⟨_, hrun, hwritten.restored hholds hback hlen', rfl⟩

end Sys2Proof.Machine
end

section
/-! PROOFS, 30_encoding.md part A, 44_frame_rx.md R214, 45_frame_tx.md R241. A frame is a plain part of 21 bytes, the segment, and a footer
of three bytes; decoding changes the segment alone. A reply in these three parts, as the receiver reads it. -/

namespace Sys2Proof.Machine

/-! ### The three parts of a frame -/

section Parts
variable {pre seg foot : List Byte}

theorem exists_frame_parts {f : List Byte} (h : 24 ≤ f.length) :
    ∃ pre seg foot, f = pre ++ seg ++ foot ∧ pre.length = 21 ∧ foot.length = 3 := by
  refine ⟨f.take 21, (f.drop 21).take (f.length - 24), f.drop (f.length - 3), ?_, ?_, ?_⟩
  · have hdrop : f.drop (f.length - 3) = (f.drop 21).drop (f.length - 24) := by
      rw [List.drop_drop]
      congr 1
      omega
    rw [hdrop, List.append_assoc, List.take_append_drop, List.take_append_drop]
  · rw [List.length_take]
    omega
  · rw [List.length_drop]
    omega

theorem parts_length (hpre : pre.length = 21) (hfoot : foot.length = 3) :
    (pre ++ seg ++ foot).length = seg.length + 24 := by
  rw [List.length_append, List.length_append, hpre, hfoot]
  omega

theorem slice_parts (hpre : pre.length = 21) : slice (pre ++ seg ++ foot) 0 fixedLen = pre := by
  rw [List.append_assoc]
  exact List.take_left' hpre

theorem segmentOf_parts (hpre : pre.length = 21) (hfoot : foot.length = 3) : segmentOf (pre ++ seg ++ foot) = seg := by
  rw [segmentOf, slice, parts_length hpre hfoot, List.append_assoc, List.drop_left' hpre]
  exact List.take_left' rfl

theorem drop_parts (hpre : pre.length = 21) (hfoot : foot.length = 3) :
    (pre ++ seg ++ foot).drop ((pre ++ seg ++ foot).length - footLen) = foot := by
  refine List.drop_left' ?_
  rw [parts_length hpre hfoot, footLen, List.length_append, hpre]
  omega

/-- The flags stand in the plain part. -/
theorem isEncrypted_parts (hpre : pre.length = 21) : isEncrypted (pre ++ seg ++ foot) = isEncrypted pre := by
  rw [isEncrypted, isEncrypted, byteAt, byteAt, List.append_assoc, List.getD_append _ _ _ _ (by omega)]

end Parts

/-- The sum covers all but the last byte of the segment, with which it is compared (41_sum8.md R143). -/
theorem segmentSum_concat (body : List Byte) (c : Byte) : segmentSum (body ++ [c]) = sum8Of body := by
  rw [segmentSum, slice, List.length_append]
  exact congrArg sum8Of (List.take_left' rfl)

theorem segmentCrc8_concat (body : List Byte) (c : Byte) : segmentCrc8 (body ++ [c]) = c := by
  rw [segmentCrc8, List.length_append]
  exact byteAt_append_length_add body [c] 0

/-! ### `decode` by parts (44_frame_rx.md R214) -/

section DecodeFrame
variable {f pre seg foot k1 k2 : List Byte} {n : Nat}

/-- The segment of a frame with this plain part in clear. -/
def clearSegment (pre seg k1 k2 : List Byte) (n : Nat) : List Byte :=
  if isEncrypted pre then rc4Crypt (deriveKey k1 k2 n).toList seg else seg

theorem clearSegment_of_clear (h : isEncrypted pre = false) : clearSegment pre seg k1 k2 n = seg := by
  simp [clearSegment, h]

theorem clearSegment_of_encrypted (h : isEncrypted pre = true) :
    clearSegment pre seg k1 k2 n = rc4Crypt (deriveKey k1 k2 n).toList seg := if_pos h

@[simp] theorem clearSegment_length : (clearSegment pre seg k1 k2 n).length = seg.length := by
  unfold clearSegment
  split
  · exact rc4Crypt_length _ _
  · rfl

/-- The same key turns the segment either way (43_rc4.md section 1). -/
theorem clearSegment_clearSegment : clearSegment pre (clearSegment pre seg k1 k2 n) k1 k2 n = seg := by
  unfold clearSegment
  split
  · exact rc4CryptIsAnInvolution _ _
  · rfl

theorem decodeFrame_of_parts (hpre : pre.length = 21) (hfoot : foot.length = 3) (hseg : 2 ≤ seg.length) :
    decodeFrame (pre ++ seg ++ foot) k1 k2 n = .ok (pre ++ clearSegment pre seg k1 k2 n ++ foot,
      crc8Matches (segmentSum (clearSegment pre seg k1 k2 n)) (segmentCrc8 (clearSegment pre seg k1 k2 n))) := by
  have hlen := parts_length (seg := seg) hpre hfoot
  have hfixed : ¬ (pre ++ seg ++ foot).length < fixedLen := by rw [hlen, fixedLen]; omega
  have hmin : ¬ (pre ++ seg ++ foot).length < minFrame := by rw [hlen, minFrame]; omega
  rw [decodeFrame, if_neg hfixed, if_neg hmin, isEncrypted_parts hpre, segmentOf_parts hpre hfoot, slice_parts hpre,
    drop_parts hpre hfoot]
  rfl

/-- A frame that decodes has the three parts, with at least two bytes of segment. -/
theorem exists_parts_of_decodeFrame {p : List Byte × Bool} (h : decodeFrame f k1 k2 n = .ok p) :
    ∃ pre seg foot, f = pre ++ seg ++ foot ∧ pre.length = 21 ∧ foot.length = 3 ∧ 2 ≤ seg.length := by
  have hmin : 26 ≤ f.length := by
    unfold decodeFrame at h
    split at h
    · cases h
    split at h
    · cases h
    · next hmin => exact Nat.le_of_not_lt hmin
  obtain ⟨pre, seg, foot, rfl, hpre, hfoot⟩ := exists_frame_parts (Nat.le_trans (by decide) hmin)
  rw [parts_length hpre hfoot] at hmin
  exact ⟨pre, seg, foot, rfl, hpre, hfoot, by omega⟩

end DecodeFrame

/-- Settles O55: decoding keeps the plain part, which says whether the segment is encrypted, and the segment turns back. -/
theorem decodingTwiceUndoesTheDecoding : Obligations.DecodingTwiceUndoesTheDecoding := by
  intro f k1 k2 n f' good h
  obtain ⟨pre, seg, foot, rfl, hpre, hfoot, hseg⟩ := exists_parts_of_decodeFrame h
  rw [decodeFrame_of_parts hpre hfoot hseg] at h
  obtain ⟨rfl, -⟩ := Prod.mk.inj (Except.ok.inj h)
  rw [isEncrypted_parts hpre]
  have hagain := decodeFrame_of_parts (seg := clearSegment pre seg k1 k2 n) (k1 := k1) (k2 := k2) (n := n) hpre hfoot
    (by rwa [clearSegment_length])
  rw [clearSegment_clearSegment] at hagain
  exact ⟨fun hclear => by rw [clearSegment_of_clear hclear], fun _ => ⟨_, hagain⟩⟩

/-! ### A reply by parts (45_frame_tx.md R241) -/

/-- A number is its two big-endian bytes put together. -/
theorem ofBe16_bytes (v : Half) : ofBe16 (v.extractLsb' 8 8) (v.extractLsb' 0 8) = v :=
  (BitVec.extractLsb'_append_extractLsb'_eq_extractLsb' (Nat.zero_add 8).symm).trans BitVec.extractLsb'_eq_self

section Reply
variable (r : ReplyArgs) (seg : List Byte)

/-- The plain part of a reply: header and plain section. -/
def replyPre : List Byte := replyHeader r ++ replyPlain r

/-- The footer of a reply. -/
def replyFoot : List Byte := be16 (crc16Of (replyPrefix r seg)) ++ [endMarker]

theorem replyFrame_eq_parts : replyFrame r seg = replyPre r ++ seg ++ replyFoot r seg := List.append_assoc _ _ _

theorem replyPre_length {r : ReplyArgs} (h : r.deviceId.length = 10) : (replyPre r).length = 21 := by
  simp [replyPre, replyHeader, replyPlain, h]

theorem isEncrypted_replyPre : isEncrypted (replyPre r) = r.shouldEncrypt := by
  show ((if r.shouldEncrypt then 0x01 else 0x00 : Byte) &&& 0x01 == 0x01) = r.shouldEncrypt
  cases r.shouldEncrypt <;> rfl

/-- The receiver's first check passes on every reply, whatever its segment (44_frame_rx.md R211). -/
theorem validateFrame_replyFrame : validateFrame (replyFrame r seg) = .ok () := by
  have hfooter : replyFrame r seg = replyPrefix r seg ++
      [(crc16Of (replyPrefix r seg)).extractLsb' 8 8, (crc16Of (replyPrefix r seg)).extractLsb' 0 8, endMarker] :=
    List.append_assoc _ _ _
  have hlen : ¬ (replyFrame r seg).length < 3 := by rw [hfooter, footer_length]; omega
  rw [validateFrame, if_neg hlen, hfooter, byteAt_last_of_footer, if_neg (not_not_intro rfl), coveredBytes_of_footer,
    crcField_of_footer, ofBe16_bytes, if_neg (not_not_intro rfl)]

/-- `encode_reply` sends the clear segment under the key exactly when it should encrypt. -/
theorem encodeReply_eq_parts (k1 k2 : List Byte) (n : Nat) :
    encodeReply r k1 k2 n = replyFrame r (clearSegment (replyPre r) (replySegment r) k1 k2 n) := by
  rw [encodeReply, clearSegment, isEncrypted_replyPre]

end Reply

/-- The receiver decodes a reply to its clear segment, and finds the crc8 correct. -/
theorem decodeFrame_encodeReply {r : ReplyArgs} (hdev : r.deviceId.length = 10) (k1 k2 : List Byte) (n : Nat) :
    decodeFrame (encodeReply r k1 k2 n) k1 k2 n = .ok (replyPre r ++ replySegment r ++
      replyFoot r (clearSegment (replyPre r) (replySegment r) k1 k2 n), true) := by
  have hseg : 2 ≤ (clearSegment (replyPre r) (replySegment r) k1 k2 n).length := by
    rw [clearSegment_length, replySegment_length]
    omega
  rw [encodeReply_eq_parts, replyFrame_eq_parts, decodeFrame_of_parts (replyPre_length hdev) rfl hseg,
    clearSegment_clearSegment, replySegment, segmentSum_concat, segmentCrc8_concat, crc8Matches, beq_self_eq_true]

/-! ### The fields of a decoded reply (30_encoding.md R90) -/

theorem slice_append_length_add (xs ys : List Byte) (i j : Nat) :
    slice (xs ++ ys) (xs.length + i) (xs.length + j) = slice ys i j := by
  rw [slice, slice, List.drop_length_add_append, Nat.add_sub_add_left]

section Fields
variable {r : ReplyArgs} {foot : List Byte}

/-- What follows the device id in a decoded reply. -/
def replyRest (r : ReplyArgs) (foot : List Byte) : List Byte :=
  be16 (r.commandId ||| ackBit) ++ [r.keyId, 0x00, 0x00, 0x00, 0x00] ++ replySegment r ++ foot

theorem decodedReply_eq : replyPre r ++ replySegment r ++ foot = replyHeader r ++ r.deviceId ++ replyRest r foot := by
  simp only [replyPre, replyPlain, replyRest, List.append_assoc]

/-- A byte behind the device id. -/
theorem byteAt_decodedReply (hdev : r.deviceId.length = 10) (k : Nat) :
    byteAt (replyPre r ++ replySegment r ++ foot) (14 + k) = byteAt (replyRest r foot) k := by
  have hlen : (replyHeader r ++ r.deviceId).length = 14 := by simp [replyHeader, hdev]
  rw [decodedReply_eq, ← hlen]
  exact byteAt_append_length_add _ _ k

/-- A slice behind the device id. -/
theorem slice_decodedReply (hdev : r.deviceId.length = 10) (i j : Nat) :
    slice (replyPre r ++ replySegment r ++ foot) (14 + i) (14 + j) = slice (replyRest r foot) i j := by
  have hlen : (replyHeader r ++ r.deviceId).length = 14 := by simp [replyHeader, hdev]
  rw [decodedReply_eq, ← hlen]
  exact slice_append_length_add _ _ i j

theorem parse_decodedReply_deviceId (hdev : r.deviceId.length = 10) :
    (parse (replyPre r ++ replySegment r ++ foot)).deviceId = r.deviceId := by
  rw [parse, decodedReply_eq, List.append_assoc]
  exact (slice_append_length_add (replyHeader r) _ 0 10).trans (List.take_left' hdev)

theorem parse_decodedReply_commandId (hdev : r.deviceId.length = 10) :
    (parse (replyPre r ++ replySegment r ++ foot)).commandId = r.commandId ||| ackBit :=
  (congrArg₂ ofBe16 (byteAt_decodedReply hdev 0) (byteAt_decodedReply hdev 1)).trans (ofBe16_bytes _)

theorem parse_decodedReply_dataLen (hdev : r.deviceId.length = 10) (hextra : r.extra.length ≤ 253) :
    (parse (replyPre r ++ replySegment r ++ foot)).dataLen.toNat = 2 + r.extra.length := by
  have hbyte : (parse (replyPre r ++ replySegment r ++ foot)).dataLen = BitVec.ofNat 8 (2 + r.extra.length) :=
    byteAt_decodedReply hdev 7
  rw [hbyte, BitVec.toNat_ofNat]
  omega

/-- The data are all of the segment but data_len before and crc8 behind. -/
theorem parse_decodedReply_data (hdev : r.deviceId.length = 10) (hfoot : foot.length = 3) :
    (parse (replyPre r ++ replySegment r ++ foot)).data = [r.status, r.request] ++ r.extra := by
  have hend : (replyPre r ++ replySegment r ++ foot).length - 4 = 14 + (10 + r.extra.length) := by
    rw [parts_length (replyPre_length hdev) hfoot, replySegment_length]
    omega
  have hdata : (replyRest r foot).drop 8 = [r.status, r.request] ++ r.extra ++ ([sum8Of (replyBody r)] ++ foot) := by
    simp [replyRest, replySegment, replyBody, be16]
  rw [parse, hend]
  refine (slice_decodedReply hdev 8 _).trans ?_
  rw [slice, hdata]
  refine List.take_left' ?_
  rw [List.length_append, List.length_cons, List.length_singleton]
  omega

end Fields

/-- Settles O53: a reply validates, decodes to its clear segment, and its fields are read off where the encoder put them. -/
theorem encodedReplyIsAccepted : Obligations.EncodedReplyIsAccepted := by
  intro r k1 k2 n hdev hextra
  refine ⟨by rw [encodeReply_eq_parts, validateFrame_replyFrame], _, decodeFrame_encodeReply hdev k1 k2 n, rfl, rfl, rfl, ?_,
    parse_decodedReply_deviceId hdev, parse_decodedReply_commandId hdev, byteAt_decodedReply hdev 2,
    slice_decodedReply hdev 3 6, byteAt_decodedReply hdev 6, parse_decodedReply_dataLen hdev hextra,
    parse_decodedReply_data hdev rfl, byteAt_last_of_footer _ _ _ _⟩
  show (if r.shouldEncrypt then 0x01 else 0x00 : Byte) = if r.shouldEncrypt then 1 else 0
  rfl

end Sys2Proof.Machine
end

section
/-! PROOFS, 43_rc4.md R199, 44_frame_rx.md R216. The cipher step of the frame operations under the key that the loaded secrets give, and
FRM.DECODE on a frame in its three parts. -/

namespace Sys2Proof.Machine

/-! ### The cipher step (43_rc4.md R199) -/

theorem Rc4.advance_i (n : Nat) (c : Rc4) : (c.advance n).i = c.i + BitVec.ofNat 8 n := by
  induction n generalizing c with
  | zero => exact (BitVec.add_zero c.i).symm
  | succ n ih =>
    have hnext : c.next.2.i = c.i + 1 := rfl
    rw [Rc4.advance, ih, hnext, BitVec.add_assoc, Nat.add_comm n 1, BitVec.ofNat_add]
    rfl

/-- From `s` to `t` nothing changed but the engine, the digest, the key, the cipher state and their flags. -/
abbrev State.OnlyKeyedCipherChanged (s t : State) : Prop :=
  t = { s with
    sha := t.sha, shav := t.shav, dg := t.dg, dgv := t.dgv, dk := t.dk, dkv := t.dkv,
    s := t.s, ri := t.ri, rj := t.rj, rc4v := t.rc4v }

/-- The cipher step with secrets that fit: the segment under the key of `derive_key`, from keystream byte 0, and the state
as the three inner operations leave it. -/
theorem State.deriveAndCrypt_eq {k1 k2 : List Byte} (hlen : 32 + k1.length + k2.length < 2 ^ 61) (seg : List Byte) (s : State) :
    ∃ u, s.deriveAndCrypt k1 k2 seg = .ok (rc4Crypt (deriveKey k1 k2 s.iter.toNat).toList seg, u) ∧
      s.OnlyKeyedCipherChanged u ∧ u.LeftByCipherStep k1 k2 s.iter.toNat seg.length := by
  obtain ⟨e, he, hderive⟩ := s.deriveKeyInto_eq hlen
  refine ⟨State.setCipher { s.hashed e (deriveKey k1 k2 s.iter.toNat) with
      dk := some (deriveKey k1 k2 s.iter.toNat), dkv := true, rc4v := true }
    ((Rc4.ofKey (deriveKey k1 k2 s.iter.toNat).toList).advance seg.length),
    ?_, rfl, he, rfl, rfl, rfl, rfl, rfl, rfl, rfl, rfl, rfl, ?_⟩
  · rw [State.deriveAndCrypt, hderive, Check.ok_bind, State.scheduleKey_eq_ok.2 ⟨_, rfl, rfl, rfl⟩, Check.ok_bind]
    exact State.xorKeystream_eq_ok.2 ⟨Rc4.ofKey _, rfl, rfl, rfl⟩
  · exact (Rc4.advance_i _ _).trans (BitVec.zero_add _)

/-! ### The change of FRM.DECODE by parts (44_frame_rx.md R216) -/

section Decoded
variable {s : State} {f pre seg foot k1 k2 : List Byte}

theorem not_parts_lt (hpre : pre.length = 21) (hfoot : foot.length = 3) (hseg : 2 ≤ seg.length) :
    ¬ (pre ++ seg ++ foot).length < fixedLen ∧ ¬ (pre ++ seg ++ foot).length < minFrame := by
  rw [parts_length hpre hfoot, fixedLen, minFrame]
  omega

theorem State.decoded_of_clear (hpre : pre.length = 21) (hfoot : foot.length = 3) (hseg : 2 ≤ seg.length) :
    s.decoded (pre ++ seg ++ foot) none = .ok ({ s with rxenc := false }.reportSegment seg) := by
  obtain ⟨hfixed, hmin⟩ := not_parts_lt hpre hfoot hseg
  rw [State.decoded, if_neg hfixed, if_neg hmin, segmentOf_parts hpre hfoot]

/-- With the secrets the segment is decrypted in place and reported on. -/
theorem State.decoded_of_encrypted (hpre : pre.length = 21) (hfoot : foot.length = 3) (hseg : 2 ≤ seg.length)
    (hlen : 32 + k1.length + k2.length < 2 ^ 61) {clear : List Byte}
    (hclear : rc4Crypt (deriveKey k1 k2 s.iter.toNat).toList seg = clear) :
    ∃ t, s.decoded (pre ++ seg ++ foot) (some (k1, k2)) = .ok t ∧
      State.OnlyKeyedCipherChanged { s with
        fb := s.fb.writeRange 21 clear, sum8 := segmentSum clear,
        crc8ok := crc8Matches (segmentSum clear) (segmentCrc8 clear), rxenc := true, err := .ok } t ∧
      t.LeftByCipherStep k1 k2 s.iter.toNat seg.length := by
  obtain ⟨hfixed, hmin⟩ := not_parts_lt hpre hfoot hseg
  obtain ⟨u, hu, hframe, hleft⟩ := State.deriveAndCrypt_eq hlen seg { s with rxenc := true }
  rw [hclear] at hu
  refine ⟨{ u with fb := u.fb.writeRange fixedLen clear }.reportSegment clear, ?_, ?_, hleft⟩
  · rw [State.decoded, if_neg hfixed, if_neg hmin, segmentOf_parts hpre hfoot]
    dsimp only
    rw [hu]
    rfl
  · unfold State.OnlyKeyedCipherChanged
    rw [hframe]
    rfl

theorem State.decoded_of_lt_fixedLen (keys : Option (List Byte × List Byte)) (h : f.length < 21) :
    s.decoded f keys = .ok { s with crc8ok := false, rxenc := false, err := .reject .decodeShort } :=
  if_pos h

theorem State.decoded_of_lt_minFrame (keys : Option (List Byte × List Byte)) (h : 21 ≤ f.length) (h' : f.length < 26) :
    s.decoded f keys = .ok { s with crc8ok := false, rxenc := false, err := .reject .segmentShort } :=
  (if_neg (Nat.not_lt.2 h)).trans (if_pos h')

/-! ### Whether the decode step derives a key -/

theorem decodeDerives_of_lt (h : f.length < 26) : decodeDerives f = false := by
  simp [decodeDerives, minFrame, Nat.not_le.2 h]

theorem decodeDerives_of_parts (hpre : pre.length = 21) (hfoot : foot.length = 3) (hseg : 2 ≤ seg.length) :
    decodeDerives (pre ++ seg ++ foot) = isEncrypted pre := by
  have hmin : minFrame ≤ (pre ++ seg ++ foot).length := Nat.le_of_not_lt (not_parts_lt hpre hfoot hseg).2
  rw [decodeDerives, isEncrypted_parts hpre, decide_eq_true hmin, Bool.true_and]

/-- The flags byte of the plain part. -/
theorem isEncrypted_of_flags {flags : Byte} (hflags : pre[3]? = some flags) : isEncrypted pre = (flags &&& 0x01 == 0x01) := by
  rw [isEncrypted, byteAt, List.getD_eq_getElem?_getD, hflags, Option.getD_some]

/-! ### The operation -/

theorem exec_frmDecode (s : State) :
    exec .frmDecode s = s.attempt (s.fbFrame >>= fun f => s.readKeysIf (decodeDerives f) >>= fun keys => s.decoded f keys) := rfl

theorem State.readKeysIf_true_of_hasKeys (h : s.HasKeys k1 k2) : s.readKeysIf true = .ok (some (k1, k2)) :=
  State.readKeysIf_eq_ok.2 (.inr ⟨rfl, k1, k2, h, rfl⟩)

theorem exec_frmDecode_without_keys (hf : s.HasFrame f) (h : decodeDerives f = false) :
    exec .frmDecode s = s.attempt (s.decoded f none) := by
  rw [exec_frmDecode, State.attempt_fbFrame_of_hasFrame _ hf, h, State.readKeysIf_false, Check.ok_bind]

theorem exec_frmDecode_with_keys (hf : s.HasFrame f) (h : decodeDerives f = true) (hkeys : s.HasKeys k1 k2) :
    exec .frmDecode s = s.attempt (s.decoded f (some (k1, k2))) := by
  rw [exec_frmDecode, State.attempt_fbFrame_of_hasFrame _ hf, h, State.readKeysIf_true_of_hasKeys hkeys, Check.ok_bind]

end Decoded

/-- Settles O47: neither a short frame nor a clear one derives a key. -/
theorem frmDecodeReportsAClearFrame : Obligations.FrmDecodeReportsAClearFrame := by
  intro s
  refine ⟨fun f hf hlen => ?decodeShort, fun f hf hlen hlen' => ?segmentShort,
    fun pre body c foot flags hf hpre hbody hfoot hflags hclear => ?clear⟩
  case decodeShort =>
    rw [exec_frmDecode_without_keys hf (decodeDerives_of_lt (by omega)), State.decoded_of_lt_fixedLen none hlen,
      State.attempt_ok]
  case segmentShort =>
    rw [exec_frmDecode_without_keys hf (decodeDerives_of_lt hlen'), State.decoded_of_lt_minFrame none hlen hlen',
      State.attempt_ok]
  case clear =>
    have hseg : 2 ≤ (body ++ [c]).length := by rw [List.length_append, List.length_singleton]; omega
    rw [List.append_assoc pre body] at hf
    have hderives : decodeDerives (pre ++ (body ++ [c]) ++ foot) = false := by
      rw [decodeDerives_of_parts hpre hfoot hseg, isEncrypted_of_flags hflags, hclear]
      rfl
    rw [exec_frmDecode_without_keys hf hderives, State.decoded_of_clear hpre hfoot hseg, State.attempt_ok,
      State.reportSegment, segmentSum_concat, segmentCrc8_concat]
    rfl

/-- Settles O48: both secrets are read, and the cipher step turns the segment into the clear one. -/
theorem frmDecodeDecryptsInPlace : Obligations.FrmDecodeDecryptsInPlace := by
  intro s pre seg foot flags k1 k2 body c hf hpre hseg hfoot hflags hencrypted hkeys hclear
  have hderives : decodeDerives (pre ++ seg ++ foot) = true := by
    rw [decodeDerives_of_parts hpre hfoot hseg, isEncrypted_of_flags hflags, hencrypted]
    rfl
  obtain ⟨t, ht, hframe, hleft⟩ :=
    State.decoded_of_encrypted hpre hfoot hseg (State.HasKeys.kdfMessage_lt hkeys) hclear
  rw [segmentSum_concat, segmentCrc8_concat] at hframe
  refine ⟨t, ?_, ?_, ?_, hleft⟩
  · rw [exec_frmDecode_with_keys hf hderives hkeys, ht, State.attempt_ok]
  · rw [hframe]
    rfl
  · rw [hframe]
    exact Memory.writeRange_writtenTo s.fb 21 (body ++ [c])

end Sys2Proof.Machine
end

section
/-! PROOFS, 44_frame_rx.md R210 to R220. FRM.RX: what the validation leaves in each case of `validate_frame`, the verdict after the decode
step, and the faults, which come before both. -/

namespace Sys2Proof.Machine

/-! ### The faults of FRM.DECODE and FRM.RX (60_exceptions.md R298) -/

section FrameFaults
variable {s : State} {f : List Byte}

theorem State.readKeysIf_true_of_error {c : FaultCode} (h : s.readKeys = .error c) : s.readKeysIf true = .error c := by
  simp [State.readKeysIf, h]

theorem decodeDerives_of_encrypted (hlen : 26 ≤ f.length) (henc : isEncrypted f = true) : decodeDerives f = true := by
  simp [decodeDerives, minFrame, hlen, henc]

theorem exec_frmDecode_of_keys_error {c : FaultCode} (hf : s.HasFrame f) (hderives : decodeDerives f = true)
    (hkeys : s.readKeys = .error c) : exec .frmDecode s = .next (s.raise c) := by
  rw [exec_frmDecode, State.attempt_fbFrame_of_hasFrame _ hf, hderives, State.readKeysIf_true_of_error hkeys]
  rfl

theorem exec_frmRx_of_keys_error {c : FaultCode} (hf : s.HasFrame f) (hvalid : validateFrame f = .ok ())
    (hderives : decodeDerives f = true) (hkeys : s.readKeys = .error c) : exec .frmRx s = .next (s.raise c) := by
  rw [exec_frmRx, State.attempt_fbFrame_of_hasFrame _ hf, hvalid, hderives]
  exact congrArg (fun x => s.attempt (x >>= fun keys => s.received f keys)) (State.readKeysIf_true_of_error hkeys)

end FrameFaults

/-- Settles O49: the frame is read first, then, when the decode step derives a key, the secrets. -/
theorem frmDecodeAndRxFaults : Obligations.FrmDecodeAndRxFaults := by
  intro s
  refine ⟨fun hflen => ?range, fun hflen hlacks => ?undef, fun f hf hlen henc hmax => ?keyLen,
    fun f hf hlen henc hmax1 hmax2 hlacks => ?undefKey⟩
  case range => exact ⟨State.attempt_fbFrame_of_lt _ hflen, State.attempt_fbFrame_of_lt _ hflen⟩
  case undef => exact ⟨State.attempt_fbFrame_of_lacks _ hflen hlacks, State.attempt_fbFrame_of_lacks _ hflen hlacks⟩
  case keyLen =>
    have hkeys : s.readKeys = .error .keyLen := State.readKeys_eq_error.2 (.inl ⟨rfl, hmax⟩)
    have hderives := decodeDerives_of_encrypted hlen henc
    exact ⟨exec_frmDecode_of_keys_error hf hderives hkeys, fun hvalid => exec_frmRx_of_keys_error hf hvalid hderives hkeys⟩
  case undefKey =>
    have hkeys : s.readKeys = .error .undef := State.readKeys_eq_error.2 (.inr ⟨rfl, hmax1, hmax2, hlacks⟩)
    have hderives := decodeDerives_of_encrypted hlen henc
    exact ⟨exec_frmDecode_of_keys_error hf hderives hkeys, fun hvalid => exec_frmRx_of_keys_error hf hvalid hderives hkeys⟩

/-! ### The validation (44_frame_rx.md R211, R212) -/

section Received
variable {s u : State} {f k1 k2 : List Byte} {keys : Option (List Byte × List Byte)} {c : RejectCode} {n : Nat}

/-- FRM.VALIDATE's change on a frame that `validate_frame` rejects. -/
theorem State.validated_of_error (h : validateFrame f = .error c) : s.validated f = { s with
    valid := false, err := .reject c, crc16 := if c = .crc16 then crc16Of (coveredBytes f) else s.crc16 } := by
  unfold validateFrame at h
  unfold State.validated
  split at h
  · next hlen =>
    obtain rfl := Except.error.inj h
    exact if_pos hlen
  next hlen =>
  rw [if_neg hlen]
  split at h
  · next hmark =>
    obtain rfl := Except.error.inj h
    exact if_pos hmark
  next hmark =>
  rw [if_neg hmark]
  split at h
  · next hcrc =>
    obtain rfl := Except.error.inj h
    exact if_pos hcrc
  · cases h

/-- FRM.VALIDATE's change on a frame that `validate_frame` accepts. -/
theorem State.validated_of_ok (h : validateFrame f = .ok ()) :
    s.validated f = { s with crc16 := crc16Of (coveredBytes f), valid := true, err := .ok } := by
  unfold validateFrame at h
  unfold State.validated
  split at h
  · cases h
  next hlen =>
  rw [if_neg hlen]
  split at h
  · cases h
  next hmark =>
  rw [if_neg hmark]
  split at h
  · cases h
  · next hcrc => exact if_neg hcrc

/-! ### The change of FRM.RX (44_frame_rx.md R220) -/

theorem State.received_of_error (h : validateFrame f = .error c) : s.received f keys = .ok { s with
    valid := false, crc8ok := false, rxenc := false, err := .reject c,
    crc16 := if c = .crc16 then crc16Of (coveredBytes f) else s.crc16 } := by
  rw [State.received, State.validated_of_error h]
  rfl

/-- A valid frame that the decode step rejects. -/
theorem State.received_of_reject (h : validateFrame f = .ok ()) (hu : (s.validated f).decoded f keys = .ok u)
    (herr : u.err = .reject c) : s.received f keys = .ok u := by
  have hvalid : (s.validated f).valid = true := by rw [State.validated_of_ok h]
  rw [State.received, if_pos hvalid, hu, Check.ok_bind, if_neg (by simp [herr])]

/-- A valid frame that the decode step reports on: the crc8 is the verdict. -/
theorem State.received_of_report (h : validateFrame f = .ok ()) (hu : (s.validated f).decoded f keys = .ok u)
    (herr : u.err = .ok) :
    s.received f keys = .ok { u with err := if u.crc8ok then .ok else .reject .crc8 } := by
  have hvalid : (s.validated f).valid = true := by rw [State.validated_of_ok h]
  rw [State.received, if_pos hvalid, hu, Check.ok_bind]
  rcases Bool.eq_false_or_eq_true u.crc8ok with hcrc8 | hcrc8
  · rw [if_neg (by simp [hcrc8]), if_pos hcrc8, ← herr]
  · rw [if_pos ⟨herr, hcrc8⟩, if_neg (by simp [hcrc8])]
    rfl

theorem decodeFrame_error (h : decodeFrame f k1 k2 n = .error c) :
    (f.length < 21 ∧ c = .decodeShort) ∨ (21 ≤ f.length ∧ f.length < 26 ∧ c = .segmentShort) := by
  unfold decodeFrame at h
  split at h
  · next hlen => exact .inl ⟨hlen, (Except.error.inj h).symm⟩
  next hlen =>
  split at h
  · next hmin => exact .inr ⟨Nat.le_of_not_lt hlen, hmin, (Except.error.inj h).symm⟩
  · cases h

/-! ### The operation -/

theorem exec_frmRx_without_keys (hf : s.HasFrame f) (h : validateFrame f = .ok () → decodeDerives f = false) :
    exec .frmRx s = s.attempt (s.received f none) := by
  have hkeys : s.readKeysIf ((validateFrame f).toBool && decodeDerives f) = .ok none := by
    cases hv : validateFrame f with
    | error c => rfl
    | ok _ =>
      rw [h hv, Bool.and_false]
      rfl
  rw [exec_frmRx, State.attempt_fbFrame_of_hasFrame _ hf, hkeys, Check.ok_bind]

theorem exec_frmRx_with_keys (hf : s.HasFrame f) (hvalid : validateFrame f = .ok ()) (hderives : decodeDerives f = true)
    (hkeys : s.HasKeys k1 k2) : exec .frmRx s = s.attempt (s.received f (some (k1, k2))) := by
  rw [exec_frmRx, State.attempt_fbFrame_of_hasFrame _ hf, hvalid, hderives]
  exact congrArg (fun x => s.attempt (x >>= fun keys => s.received f keys)) (State.readKeysIf_true_of_hasKeys hkeys)

end Received

/-! ### What FB holds after the decode step -/

section WrittenParts
variable {m : Memory} {pre seg seg' foot f : List Byte}

/-- Bytes that the buffer holds count as written. -/
theorem Memory.Holds.writtenTo_self (h : m.Holds 0 f) : m.WrittenTo m 0 f := by
  intro a
  split
  · next ha => simpa using h a (by omega)
  · rfl

/-- A segment of the same length written behind the plain part of a frame: FB then holds the frame with that segment. -/
theorem Memory.Holds.writtenTo_parts (h : m.Holds 0 (pre ++ seg ++ foot)) (hlen : seg'.length = seg.length) :
    m.WrittenTo (m.writeRange pre.length seg') 0 (pre ++ seg' ++ foot) := by
  intro a
  have htotal : (pre ++ seg' ++ foot).length = (pre ++ seg ++ foot).length := by simp [hlen]
  have hwritten := Memory.writeRange_writtenTo m pre.length seg'
  by_cases hseg : pre.length ≤ a ∧ a < pre.length + seg'.length
  · have ha : a < (pre ++ seg' ++ foot).length := by simp only [List.length_append]; omega
    rw [hwritten, if_pos hseg, if_pos ⟨Nat.zero_le a, (Nat.zero_add _).symm ▸ ha⟩, Nat.sub_zero,
      List.getElem?_append_left (by rw [List.length_append]; exact hseg.2), List.getElem?_append_right hseg.1]
  · rw [hwritten, if_neg hseg]
    refine (h.writtenTo_self a).trans (if_congr (by rw [htotal]) ?_ rfl)
    rw [Nat.sub_zero]
    by_cases hpre : a < pre.length
    · rw [List.append_assoc, List.append_assoc, List.getElem?_append_left hpre, List.getElem?_append_left hpre]
    · have hfoot : pre.length + seg'.length ≤ a := by omega
      rw [List.getElem?_append_right (by simp only [List.length_append]; omega),
        List.getElem?_append_right (by simp only [List.length_append]; omega)]
      simp only [List.length_append, hlen]

end WrittenParts

/-! ### The obligation -/

/-- FRM.RX on a valid clear frame. -/
theorem exec_frmRx_of_clear {s : State} {pre seg foot : List Byte} (hf : s.HasFrame (pre ++ seg ++ foot))
    (hvalid : validateFrame (pre ++ seg ++ foot) = .ok ()) (hpre : pre.length = 21) (hfoot : foot.length = 3)
    (hseg : 2 ≤ seg.length) (hclear : isEncrypted pre = false) :
    exec .frmRx s = .next { s with
      valid := true, crc16 := crc16Of (coveredBytes (pre ++ seg ++ foot)), sum8 := segmentSum seg, rxenc := false,
      crc8ok := crc8Matches (segmentSum seg) (segmentCrc8 seg),
      err := if crc8Matches (segmentSum seg) (segmentCrc8 seg) then .ok else .reject .crc8 } := by
  have hderives : decodeDerives (pre ++ seg ++ foot) = false := by rw [decodeDerives_of_parts hpre hfoot hseg, hclear]
  rw [exec_frmRx_without_keys hf fun _ => hderives,
    State.received_of_report hvalid (State.decoded_of_clear hpre hfoot hseg) rfl, State.validated_of_ok hvalid]
  rfl

/-- FRM.RX on a valid encrypted frame with both secrets loaded. -/
theorem exec_frmRx_of_encrypted {s : State} {pre seg foot k1 k2 clear : List Byte} (hf : s.HasFrame (pre ++ seg ++ foot))
    (hvalid : validateFrame (pre ++ seg ++ foot) = .ok ()) (hpre : pre.length = 21) (hfoot : foot.length = 3)
    (hseg : 2 ≤ seg.length) (henc : isEncrypted pre = true) (hkeys : s.HasKeys k1 k2)
    (hclear : rc4Crypt (deriveKey k1 k2 s.iter.toNat).toList seg = clear) :
    ∃ t, exec .frmRx s = .next t ∧
      State.OnlyKeyedCipherChanged { s with
        valid := true, crc16 := crc16Of (coveredBytes (pre ++ seg ++ foot)), sum8 := segmentSum clear, rxenc := true,
        fb := s.fb.writeRange 21 clear, crc8ok := crc8Matches (segmentSum clear) (segmentCrc8 clear),
        err := if crc8Matches (segmentSum clear) (segmentCrc8 clear) then .ok else .reject .crc8 } t ∧
      t.LeftByCipherStep k1 k2 s.iter.toNat seg.length := by
  have hderives : decodeDerives (pre ++ seg ++ foot) = true := by rw [decodeDerives_of_parts hpre hfoot hseg, henc]
  have hvalidated := State.validated_of_ok (s := s) hvalid
  obtain ⟨u, hu, hframe, hleft⟩ := State.decoded_of_encrypted (s := s.validated (pre ++ seg ++ foot)) hpre hfoot hseg
    (State.HasKeys.kdfMessage_lt hkeys) ((s.validated_iter _).symm ▸ hclear)
  rw [State.validated_iter] at hleft
  have herr : u.err = .ok := by rw [hframe]
  refine ⟨_, (exec_frmRx_with_keys hf hvalid hderives hkeys).trans
    (congrArg s.attempt (State.received_of_report hvalid hu herr)), ?_, hleft⟩
  unfold State.OnlyKeyedCipherChanged
  rw [hframe, hvalidated]

/-- Settles O50: the outcome of `validate_frame`, then, for a valid frame, that of `decode`. -/
theorem frmRxValidatesThenDecodes : Obligations.FrmRxValidatesThenDecodes := by
  intro s f k1 k2 hf hkeys
  refine ⟨fun c hinvalid => ?invalid, fun hvalid c hreject => ?rejected, fun hvalid f' good hdecode => ?decoded⟩
  case invalid =>
    have hne : validateFrame f = .ok () → decodeDerives f = false := fun h => nomatch h.symm.trans hinvalid
    rw [exec_frmRx_without_keys hf hne, State.received_of_error hinvalid, State.attempt_ok]
  case rejected =>
    rcases decodeFrame_error hreject with ⟨hlen, rfl⟩ | ⟨hlen, hmin, rfl⟩
    · rw [exec_frmRx_without_keys hf fun _ => decodeDerives_of_lt (by omega),
        State.received_of_reject hvalid (State.decoded_of_lt_fixedLen none hlen) rfl, State.validated_of_ok hvalid]
      rfl
    · rw [exec_frmRx_without_keys hf fun _ => decodeDerives_of_lt hmin,
        State.received_of_reject hvalid (State.decoded_of_lt_minFrame none hlen hmin) rfl, State.validated_of_ok hvalid]
      rfl
  case decoded =>
    obtain ⟨pre, seg, foot, rfl, hpre, hfoot, hseg⟩ := exists_parts_of_decodeFrame hdecode
    obtain ⟨hflen, hlen, hholds⟩ := hf
    rw [decodeFrame_of_parts hpre hfoot hseg] at hdecode
    obtain ⟨rfl, rfl⟩ := Prod.mk.inj (Except.ok.inj hdecode)
    rw [isEncrypted_parts hpre, segmentOf_parts hpre hfoot, parts_length hpre hfoot, Nat.add_sub_cancel]
    cases henc : isEncrypted pre with
    | false =>
      rw [clearSegment_of_clear henc]
      exact ⟨_, exec_frmRx_of_clear ⟨hflen, hlen, hholds⟩ hvalid hpre hfoot hseg henc, rfl,
        Memory.Holds.writtenTo_self hholds, fun _ => ⟨rfl, rfl, rfl, rfl, rfl, rfl, rfl, rfl, rfl, rfl⟩, nofun⟩
    | true =>
      have hkeys := hkeys hvalid (by rw [parts_length hpre hfoot]; omega) (by rw [isEncrypted_parts hpre, henc])
      obtain ⟨t, ht, hframe, hleft⟩ := exec_frmRx_of_encrypted ⟨hflen, hlen, hholds⟩ hvalid hpre hfoot hseg henc hkeys
        (clearSegment_of_encrypted henc).symm
      refine ⟨t, ht, ?_, ?_, nofun, fun _ => hleft⟩
      · rw [hframe]
      · have hwritten := Memory.Holds.writtenTo_parts hholds (clearSegment_length (pre := pre) (k1 := k1) (k2 := k2) (n := s.iter.toNat))
        rw [hpre] at hwritten
        rw [hframe]
        exact hwritten

end Sys2Proof.Machine
end

section
/-! PROOFS, 45_frame_tx.md R241, R242, R245. FRM.ENCODE: the reply that its arguments give, its faults in their order, and the receiver
on the reply that it leaves in FB. -/

namespace Sys2Proof.Machine

/-! ### The change of FRM.ENCODE -/

section Encode
variable {s t : State} {dev extra k1 k2 seg : List Byte} {r : ReplyArgs}

theorem exec_frmEncode_of_payload (h : 253 < s.txxlen.toNat) : exec .frmEncode s = .next (s.raise .payload) :=
  congrArg s.attempt (if_pos h)

theorem exec_frmEncode_of_keys {keys : Option (List Byte × List Byte)} (hx : s.txxlen.toNat ≤ 253)
    (hkeys : s.readKeysIf (s.txctl == 1) = .ok keys) :
    exec .frmEncode s = s.attempt (s.readTx s.txxlen.toNat >>= fun p => s.encoded (s.replyArgs p.1 p.2) keys) := by
  rw [exec_frmEncode_of_le hx, hkeys, Check.ok_bind]

theorem exec_frmEncode_of_keys_error {c : FaultCode} (hx : s.txxlen.toNat ≤ 253) (hctl : s.txctl = 1)
    (hkeys : s.readKeys = .error c) : exec .frmEncode s = .next (s.raise c) := by
  rw [exec_frmEncode_of_le hx, hctl]
  exact congrArg (fun x => s.attempt (x >>= fun keys => s.readTx s.txxlen.toNat >>= fun p => s.encoded (s.replyArgs p.1 p.2) keys))
    (State.readKeysIf_true_of_error hkeys)

/-- The secrets are read when TXCTL.ENC asks for them, and they are loaded then. -/
theorem State.exists_readKeysIf_of_txctl (h : s.txctl = 1 → ∃ k1 k2, s.HasKeys k1 k2) :
    ∃ keys, s.readKeysIf (s.txctl == 1) = .ok keys := by
  cases henc : s.txctl == 1 with
  | false => exact ⟨none, rfl⟩
  | true =>
    obtain ⟨k1, k2, hkeys⟩ := h (beq_iff_eq.1 henc)
    exact ⟨_, State.readKeysIf_true_of_hasKeys hkeys⟩

/-- The segment as transmitted, from the arguments with the secrets they need. -/
theorem State.encoded_eq (hkeys : s.txctl = 1 → s.HasKeys k1 k2) (hr : r.shouldEncrypt = (s.txctl == 1)) :
    ∃ keys u, s.readKeysIf (s.txctl == 1) = .ok keys ∧
      s.encoded r keys = .ok (u.storeReply r (clearSegment (replyPre r) (replySegment r) k1 k2 s.iter.toNat)) ∧
      State.OnlyKeyedCipherChanged { s with sum8 := sum8Of (replyBody r) } u ∧
      (s.txctl = 0 → s.SameCipher u) ∧ (s.txctl = 1 → u.LeftByCipherStep k1 k2 s.iter.toNat (r.extra.length + 4)) := by
  have hpre : isEncrypted (replyPre r) = (s.txctl == 1) := (isEncrypted_replyPre r).trans hr
  cases henc : s.txctl == 1 with
  | false =>
    rw [clearSegment_of_clear (hpre.trans henc)]
    exact ⟨none, _, rfl, rfl, rfl, fun _ => ⟨rfl, rfl, rfl, rfl, rfl, rfl, rfl, rfl, rfl, rfl⟩,
      fun h => absurd h (beq_eq_false_iff_ne.1 henc)⟩
  | true =>
    have hctl := beq_iff_eq.1 henc
    obtain ⟨u, hu, hframe, hleft⟩ := State.deriveAndCrypt_eq (State.HasKeys.kdfMessage_lt (hkeys hctl)) (replySegment r)
      { s with sum8 := sum8Of (replyBody r) }
    rw [clearSegment_of_encrypted (hpre.trans henc)]
    refine ⟨some (k1, k2), u, State.readKeysIf_true_of_hasKeys (hkeys hctl), ?_, hframe,
      fun h => absurd (h.symm.trans hctl) (by decide), fun _ => replySegment_length r ▸ hleft⟩
    rw [State.encoded]
    dsimp only
    rw [hu]
    rfl

/-- The CRC16 of a reply covers all but its footer. -/
theorem take_replyFrame (hdev : r.deviceId.length = 10) (hseg : seg.length = r.extra.length + 4) :
    (replyFrame r seg).take (25 + r.extra.length) = replyPrefix r seg := by
  have hlen : (replyPrefix r seg).length = 25 + r.extra.length := by
    rw [replyPrefix, List.length_append, hseg]
    have hpre : (replyHeader r ++ replyPlain r).length = 21 := replyPre_length hdev
    omega
  rw [replyFrame, List.append_assoc, List.take_left' hlen]

/-- The longest reply's length fits FLEN. -/
theorem State.storeReply_flen_toNat (hextra : r.extra.length ≤ 253) : (s.storeReply r seg).flen.toNat = 28 + r.extra.length := by
  have hflen : (s.storeReply r seg).flen = BitVec.ofNat 12 (28 + r.extra.length) := rfl
  rw [hflen, BitVec.toNat_ofNat]
  omega

end Encode

/-- Settles O51: the arguments are read, and the frame stored is the reply with its segment as transmitted. -/
theorem frmEncodeBuildsTheReply : Obligations.FrmEncodeBuildsTheReply := by
  intro s dev extra k1 k2 hx hextra hholds hdev hdevHolds hkeys reply
  have hmax : (s.replyArgs dev extra).extra.length ≤ 253 := hextra ▸ hx
  obtain ⟨keys, u, hread, hencoded, hframe, hsame, hleft⟩ := State.encoded_eq (r := s.replyArgs dev extra) hkeys rfl
  have htx : s.readTx s.txxlen.toNat = .ok (dev, extra) := State.readTx_eq_ok.2 ⟨hdev, hdevHolds, hextra, hholds⟩
  have hreply := encodeReply_eq_parts (s.replyArgs dev extra) k1 k2 s.iter.toNat
  have hseg := (clearSegment_length (pre := replyPre (s.replyArgs dev extra)) (seg := replySegment (s.replyArgs dev extra))
    (k1 := k1) (k2 := k2) (n := s.iter.toNat)).trans (replySegment_length _)
  have hu : u.fb = s.fb := by rw [hframe]
  have hexec := exec_frmEncode_of_keys hx hread
  rw [htx, Check.ok_bind, hencoded, State.attempt_ok] at hexec
  refine ⟨_, hexec, ?written, ?length, State.storeReply_flen_toNat hmax, ?sum8, ?crc16, ?frame, hsame, hleft⟩
  case written =>
    show s.fb.WrittenTo (u.fb.writeRange 0 _) 0 (encodeReply _ _ _ _)
    rw [hreply, hu]
    exact Memory.writeRange_writtenTo s.fb 0 _
  case length => exact (congrArg List.length hreply).trans (replyFrame_length hdev hseg)
  case sum8 => rw [State.storeReply_sum8, hframe]
  case crc16 =>
    refine congrArg crc16Of ((take_replyFrame hdev hseg).symm.trans ?_)
    exact congrArg (List.take _) hreply.symm
  case frame =>
    rw [State.storeReply, hframe]

/-- Settles O52: the payload's bound, then the secrets, then the argument bytes. -/
theorem frmEncodeFaultsInOrder : Obligations.FrmEncodeFaultsInOrder := by
  intro s
  refine ⟨exec_frmEncode_of_payload, fun hx hctl hmax => ?keyLen, fun hx hctl hmax1 hmax2 hlacks => ?undefKey,
    fun hx hkeys hlacks => ?undefTx⟩
  case keyLen => exact exec_frmEncode_of_keys_error hx hctl (State.readKeys_eq_error.2 (.inl ⟨rfl, hmax⟩))
  case undefKey => exact exec_frmEncode_of_keys_error hx hctl (State.readKeys_eq_error.2 (.inr ⟨rfl, hmax1, hmax2, hlacks⟩))
  case undefTx =>
    obtain ⟨keys, hread⟩ := State.exists_readKeysIf_of_txctl hkeys
    rw [exec_frmEncode_of_keys hx hread, State.readTx_eq_error.2 ⟨rfl, hlacks⟩]
    rfl

/-! ### The reply received back (44_frame_rx.md section 4) -/

/-- Bytes in the middle of those that a buffer holds from index 0. -/
theorem Memory.Holds.middle {m : Memory} {xs ys zs : List Byte} (h : m.Holds 0 (xs ++ ys ++ zs)) : m.Holds xs.length ys := by
  intro k hk
  have hlen : xs.length + k < (xs ++ ys).length := by rw [List.length_append]; omega
  have hread := h (xs.length + k) (Nat.lt_of_lt_of_le hlen (by simp only [List.length_append]; omega))
  rw [Nat.zero_add, List.getElem?_append_left hlen, List.getElem?_append_right (Nat.le_add_right _ _),
    Nat.add_sub_cancel_left] at hread
  exact hread

/-- Where the receiver finds the device id and the clear segment of a decoded reply. -/
theorem Memory.Holds.decodedReply {m : Memory} {r : ReplyArgs} {foot : List Byte} (hdev : r.deviceId.length = 10)
    (h : m.Holds 0 (replyPre r ++ replySegment r ++ foot)) : m.Holds 4 r.deviceId ∧ m.Holds 21 (replySegment r) := by
  have hseg := h.middle
  rw [replyPre_length hdev] at hseg
  rw [decodedReply_eq] at h
  exact ⟨h.middle, hseg⟩

/-- Settles O54: FB holds the encoder's reply, which validates and decodes to the clear one with its crc8 correct. -/
theorem replyIsReceivedBack : Obligations.ReplyIsReceivedBack := by
  intro s dev extra k1 k2 hx hextra hholds hdev hdevHolds hkeys
  obtain ⟨t, ht, hwritten, hlen, hflen, -, -, hframe, -, -⟩ :=
    frmEncodeBuildsTheReply s dev extra k1 k2 hx hextra hholds hdev hdevHolds hkeys
  have henc : isEncrypted (encodeReply (s.replyArgs dev extra) k1 k2 s.iter.toNat) = (s.txctl == 1) := by
    rw [encodeReply_eq_parts, replyFrame_eq_parts, isEncrypted_parts (replyPre_length hdev), isEncrypted_replyPre]
    rfl
  have hvalid : validateFrame (encodeReply (s.replyArgs dev extra) k1 k2 s.iter.toNat) = .ok () := by
    rw [encodeReply_eq_parts, validateFrame_replyFrame]
  have hiter : t.iter = s.iter := by rw [hframe]
  have hdecode := decodeFrame_encodeReply (r := s.replyArgs dev extra) hdev k1 k2 s.iter.toNat
  have hfits : t.flen.toNat ≤ t.cfg.fbSize := by
    have hcap := t.cfg.fbSize_ge
    omega
  have hkeys' (h : s.txctl = 1) : t.HasKeys k1 k2 := by
    rw [hframe]
    exact hkeys h
  obtain ⟨-, -, hreceive⟩ := frmRxValidatesThenDecodes t _ k1 k2 ⟨hfits, hlen.trans hflen.symm, hwritten.holds⟩
    fun _ _ h => hkeys' (beq_iff_eq.1 (henc.symm.trans h))
  rw [hiter] at hreceive
  obtain ⟨t', ht', hframe', hwritten', -, -⟩ := hreceive hvalid _ _ hdecode
  obtain ⟨hid, hseg⟩ := hwritten'.holds.decodedReply hdev
  have hexec : execAll [.frmEncode, .frmRx] s = .next t' := by rw [execAll_cons ht, execAll_cons ht', execAll_nil]
  exact ⟨t', hexec, by rw [hframe', if_pos rfl], by rw [hframe'], by rw [hframe'], by rw [hframe', henc],
    by rw [hframe', hflen], hid, hseg⟩

end Sys2Proof.Machine
end
